-- ==== Sys2Proof/Word.lean ====
section
/-! DEFINITION. The widths of SSD-FE: bytes (00_scope.md R9), timeouts TMO_W = 32 and times TIME_W = 64 bits (R7), and the
parameter DESC, the opaque type of request descriptions (R7, D25). -/

namespace Sys2Proof

/-- A byte, bit 7 the most significant (00_scope.md R9). -/
abbrev Byte := BitVec 8

/-- A four-bit error code, one half of the error data byte (30_encoding.md R62). -/
abbrev Nibble := BitVec 4

/-- A timeout or delay operand in milliseconds, TMO_W = 32 bits, unsigned (00_scope.md R7, D6). -/
abbrev Millis := BitVec 32

/-- A value of the millisecond counter, TIME_W = 64 bits (00_scope.md R7, D5). -/
abbrev Time := BitVec 64

/-! ### The request description -/

/-- What can be given for the parameter DESC (00_scope.md R7, D25): any type, with decidable equality, a printed form and one value,
so that a state stays data. `unit`, no information, is there so that the parameter exists. -/
inductive DescType : Type 1 where
  | unit
  | of (carrier : Type) (eq : DecidableEq carrier) (repr : Repr carrier) (value : carrier)
deriving Inhabited

/-- The type given. -/
def DescType.Carrier (t : DescType) : Type :=
  match t with
  | .unit => Unit
  | .of c _ _ _ => c

/-- Its equality. -/
@[reducible] def DescType.eq (t : DescType) : DecidableEq t.Carrier :=
  match t with
  | .unit => inferInstanceAs (DecidableEq Unit)
  | .of _ e _ _ => e

/-- Its printed form. -/
@[reducible] def DescType.repr (t : DescType) : Repr t.Carrier :=
  match t with
  | .unit => inferInstanceAs (Repr Unit)
  | .of _ _ r _ => r

/-- One value of it. -/
def DescType.value (t : DescType) : t.Carrier :=
  match t with
  | .unit => ()
  | .of _ _ _ v => v

/-- The parameter DESC of 00_scope.md R7: a constant without a body, so every claim holds for every type given for it
(assumption log 10). -/
opaque Config.descType : DescType

/-- A description as a value of its own type. The given type stands behind a function, so that the derived equality is the given
one and no second one is asked for. -/
structure DescOf (carrier : Unit → Type) (eq : DecidableEq (carrier ())) (repr : Repr (carrier ()))
    (inhabited : Inhabited (carrier ())) where
  value : carrier ()
deriving DecidableEq, Repr, Inhabited

/-- The request description DESC: an opaque type, whose values are stored, returned in the details of a COMM_TIMEOUT and never
inspected (00_scope.md R7, D25). -/
abbrev Desc := DescOf (fun _ => Config.descType.Carrier) Config.descType.eq Config.descType.repr ⟨Config.descType.value⟩

end Sys2Proof
end

