-- ==== Sys2Proof/Syntax.lean ====
section
/-! DEFINITION. The operations of SSD-FE as syntax: one constructor of `Instr` per row of spec/opcode_table.json, the catalog calls
by their shape (43_command_catalog.md R152), and the words the input port carries. -/

namespace Sys2Proof

/-! ### Catalog operations by the shape of their arguments (43_command_catalog.md R152) -/

/-- The catalog operations that take a channel (R153, R154, R161 to R165). -/
inductive ChannelOp where
  | vend | vendChk | setBelt | setSpring | mkSingle | mkDouble | chExists
deriving DecidableEq, Repr

/-- The catalog operations without an argument (R155 to R160, R177 to R180). -/
inductive PlainOp where
  | selfTest | resetAll | allSpring | allBelt | allSingle | repeatLast | rdTemp | rdDoor | openDoor | accelEn
deriving DecidableEq, Repr

/-- The setters that take a number, and thermo mode, which takes the caller's byte (R166 to R171, R176). -/
inductive ValueOp where
  | setPoint | hyst | comp | defrost | compRun | fanDelay | thermoMode
deriving DecidableEq, Repr

/-- The toggles (R172 to R175). -/
inductive ToggleOp where
  | glassHeat | light | buzzer | tempCtl
deriving DecidableEq, Repr

/-- One of the 28 rows of the descriptor table, without arguments (R152). -/
inductive CatalogOp where
  | channel (op : ChannelOp)
  | plain (op : PlainOp)
  | value (op : ValueOp)
  | toggle (op : ToggleOp)
deriving DecidableEq, Repr

/-- A catalog operation with its arguments: what EXEC keeps for the duration of one call (R151, 10_state.md R35). -/
inductive Call where
  | channel (op : ChannelOp) (ch : Int)
  | plain (op : PlainOp)
  | value (op : ValueOp) (v : Int)
  | toggle (op : ToggleOp) (on : Bool)
deriving DecidableEq, Repr

/-! ### The operations -/

/-- The operations of 30_encoding.md R72, one constructor per row of spec/opcode_table.json. Integers are the VAL_W-bit signed
numbers of the ports (`WellFormed`); `tmo : Option Millis` is a catalog operation's optional timeout (43_command_catalog.md
R151); `wrOk` is the environment input `wr_ok`, the transport's answer to the write of the DISPATCH the operation makes
(42_correlator.md R122). -/
inductive Instr where
  /-- RESET (70_reset_and_hazards.md R260) -/
  | reset
  /-- OPEN (42_correlator.md R129) -/
  | portOpen
  /-- CLOSE (R130) -/
  | portClose
  /-- DISPATCH (R122, 30_encoding.md R73) -/
  | dispatch (cmd sub : Int) (tmo : Millis) (desc : Desc) (allow wrOk : Bool)
  /-- RXCHUNK (R124) -/
  | rxchunk (chunk : List Byte)
  /-- TMRFIRE (R127) -/
  | tmrfire
  /-- TICK (R128) -/
  | tick
  /-- MASK8 (40_frame_codec.md R90) -/
  | mask8 (v : Int)
  /-- COMPL (R91) -/
  | compl (x : Byte)
  /-- ENCREQ (R92) -/
  | encreq (cmd sub : Int)
  /-- CHKREQ (R93) -/
  | chkreq (bytes : List Byte)
  /-- CSUM (R94) -/
  | csum (g st d a : Byte)
  /-- ENCRSP (R95) -/
  | encrsp (g st d a : Byte)
  /-- DECRSP (R96) -/
  | decrsp (bytes : List Byte)
  /-- ERRDEC (41_error_decoder.md R110) -/
  | errdec (data : Byte)
  /-- CLASSIFY (42_correlator.md R125) -/
  | classify (frame : List Byte) (allow : Bool)
  /-- RSP.OK: the response frame with status 0x5D (30_encoding.md R61, R63); `k` is its checksum byte -/
  | rspOk (g d a k : Byte)
  /-- RSP.ERROR: the response frame with status 0x5C (R61, R63) -/
  | rspError (g d a k : Byte)
  /-- VEND (43_command_catalog.md R153) -/
  | vend (ch : Int) (tmo : Option Millis) (wrOk : Bool)
  /-- VENDCHK (R154) -/
  | vendchk (ch : Int) (tmo : Option Millis) (wrOk : Bool)
  /-- SELFTEST (R155) -/
  | selftest (tmo : Option Millis) (wrOk : Bool)
  /-- RESETALL (R156) -/
  | resetall (tmo : Option Millis) (wrOk : Bool)
  /-- ALLSPRING (R157) -/
  | allspring (tmo : Option Millis) (wrOk : Bool)
  /-- ALLBELT (R158) -/
  | allbelt (tmo : Option Millis) (wrOk : Bool)
  /-- ALLSINGLE (R159) -/
  | allsingle (tmo : Option Millis) (wrOk : Bool)
  /-- REPEAT (R160) -/
  | repeatLast (tmo : Option Millis) (wrOk : Bool)
  /-- SETBELT (R161) -/
  | setbelt (ch : Int) (tmo : Option Millis) (wrOk : Bool)
  /-- SETSPRING (R162) -/
  | setspring (ch : Int) (tmo : Option Millis) (wrOk : Bool)
  /-- MKSINGLE (R163) -/
  | mksingle (ch : Int) (tmo : Option Millis) (wrOk : Bool)
  /-- MKDOUBLE (R164) -/
  | mkdouble (ch : Int) (tmo : Option Millis) (wrOk : Bool)
  /-- CHEXISTS (R165) -/
  | chexists (ch : Int) (tmo : Option Millis) (wrOk : Bool)
  /-- SETPOINT (R166) -/
  | setpoint (v : Int) (tmo : Option Millis) (wrOk : Bool)
  /-- HYST (R167) -/
  | hyst (v : Int) (tmo : Option Millis) (wrOk : Bool)
  /-- COMP (R168) -/
  | comp (v : Int) (tmo : Option Millis) (wrOk : Bool)
  /-- DEFROST (R169) -/
  | defrost (v : Int) (tmo : Option Millis) (wrOk : Bool)
  /-- COMPRUN (R170) -/
  | comprun (v : Int) (tmo : Option Millis) (wrOk : Bool)
  /-- FANDELAY (R171) -/
  | fandelay (v : Int) (tmo : Option Millis) (wrOk : Bool)
  /-- GLASSHEAT (R172) -/
  | glassheat (on : Bool) (tmo : Option Millis) (wrOk : Bool)
  /-- LIGHT (R173) -/
  | light (on : Bool) (tmo : Option Millis) (wrOk : Bool)
  /-- BUZZER (R174) -/
  | buzzer (on : Bool) (tmo : Option Millis) (wrOk : Bool)
  /-- TEMPCTL (R175) -/
  | tempctl (on : Bool) (tmo : Option Millis) (wrOk : Bool)
  /-- THERMOMODE (R176) -/
  | thermomode (v : Int) (tmo : Option Millis) (wrOk : Bool)
  /-- RDTEMP (R177) -/
  | rdtemp (tmo : Option Millis) (wrOk : Bool)
  /-- RDDOOR (R178) -/
  | rddoor (tmo : Option Millis) (wrOk : Bool)
  /-- OPENDOOR (R179) -/
  | opendoor (tmo : Option Millis) (wrOk : Bool)
  /-- ACCELEN (R180) -/
  | accelen (tmo : Option Millis) (wrOk : Bool)
  /-- POLL (44_channel_poller.md R200); `wrOk` answers the write of its first probe -/
  | poll (maxChannel : Int) (interChannelDelay perRequestTimeout : Millis) (wrOk : Bool)
deriving DecidableEq, Repr

/-! ### Words at the input port -/

/-- The formats of the opcode table (30_encoding.md R60 to R62, R77): `op` is an operation by its number `opn` (R72) with operand
bytes, `req` and `rsp` the two wire frames, `errd` the error data byte. -/
inductive Format where
  | op | req | rsp | errd
deriving DecidableEq, Repr

/-- One word at the input port: its format and its bytes, index 0 first (20_memory.md R42), and beside them the description that a
DISPATCH carries, an opaque value that has no bytes (R73). How an event is written as bytes is the model's (DESIGN CHOICE, assumption
log 1): the spec gives each operation a number that "no port carries" (R72). -/
structure PortWord where
  format : Format
  bytes : List Byte
  desc : Option Desc
deriving DecidableEq, Repr

end Sys2Proof
end

