-- ==== Sys2Proof/Config.lean ====
section
/-! DEFINITION. The constants of 00_scope.md R6, the parameters of R7, and the OPEN parameters of R8 as constants without a body:
no proof can know their values, so a claim holds for every value of them. -/

namespace Sys2Proof.Config

/-! ### Constants the source fixes (00_scope.md R6) -/

/-- `REQ_LEN` -/
def reqLen : Nat := 6
/-- `RSP_LEN` -/
def rspLen : Nat := 5
/-- `GROUP_ID` -/
def groupId : Byte := 0x00#8
/-- `ST_OK` -/
def stOk : Byte := 0x5D#8
/-- `ST_ERROR` -/
def stError : Byte := 0x5C#8
/-- `CH_MIN` -/
def chMin : Int := 1
/-- `CH_MAX` -/
def chMax : Int := 80
/-- `CH_PHYS`: "no rule reads it" (R6) -/
def chPhys : Int := 60
/-- `CHEXISTS_BASE` -/
def chexistsBase : Int := 0x78
/-- `MARK_NOCHECK`, also the no-parameter marker -/
def markNoCheck : Byte := 0x55#8
/-- `MARK_CHECK`, also the aux value meaning "dropped" -/
def markCheck : Byte := 0xAA#8
/-- `MARK_ACT` -/
def markAct : Byte := 0xAA#8
/-- `DOOR_OPEN_DATA` -/
def doorOpenData : Byte := 0x01#8

/-! ### Parameters the spec fixes by decision (00_scope.md R7) -/

/-- `RX_CHUNK_MAX`: `none` is "unbounded" (R7, D12; assumption log 20). -/
def rxChunkMax : Option Nat := none

/-! ### OPEN parameters (00_scope.md R8): no body, no value -/

/-- `CMD_VEND(ch)` (D18, 43_command_catalog.md R153). -/
opaque cmdVend : Int → Byte
/-- `CMD_VENDCHK(ch)` (D18, R154). -/
opaque cmdVendChk : Int → Byte
/-- `CMD_SETBELT` (D18, R161). -/
opaque cmdSetBelt : Byte
/-- `CMD_SETSPRING` (D18, R162). -/
opaque cmdSetSpring : Byte
/-- `CMD_MKSINGLE` (D18, R163). -/
opaque cmdMkSingle : Byte
/-- `CMD_MKDOUBLE` (D18, R164). -/
opaque cmdMkDouble : Byte
/-- `CMD_<OP>` of the ten operations without an argument (D18, R155 to R160, R177 to R180). -/
opaque cmdPlain : PlainOp → Byte
/-- `CMD_<OP>` of the seven operations with a number (D18, R166 to R171, R176). -/
opaque cmdValue : ValueOp → Byte
/-- `CMD_<OP>` of the four toggles (D18, R172 to R175). -/
opaque cmdToggle : ToggleOp → Byte

/-- `SUB_REPEAT` (D33, R160). -/
opaque subRepeat : Byte
/-- `SUB_RDTEMP` (D33, R177). -/
opaque subRdTemp : Byte
/-- `SUB_RDDOOR` (D33, R178). -/
opaque subRdDoor : Byte

/-- Which of the two marker pairs a toggle uses: `true` for (0xAA, 0x55), `false` for (0x01, 0x00) (D34, 30_encoding.md R64). -/
opaque toggleUsesAA : ToggleOp → Bool

/-- `DEFAULT_TMO_<OP>` before its constraint "at least 1" is applied (D19; `Machine.defaultTmo`, assumption log 16). -/
opaque defaultTmoFree : CatalogOp → Millis

/-- `op.desc(args)`: "its content is not specified and no behaviour depends on it" (43_command_catalog.md R151). -/
opaque descOf : Call → Desc

/-- The description in the word of the DISPATCH row of spec/opcode_table.json, which numbers no bits of it (assumption log 10). -/
opaque tableDesc : Desc

end Sys2Proof.Config
end

