-- ==== Sys2Proof/WellFormed.lean ====
section
/-! DEFINITION. What the ports can carry: every integer operand is a VAL_W-bit signed number (00_scope.md R7, D24), every chunk is
at most RX_CHUNK_MAX bytes (R7, D12). Timeouts, bytes and flags have their widths in their types. -/

namespace Sys2Proof

/-- `v` is a VAL_W-bit two's-complement number (D24). -/
def fitsVal (v : Int) : Bool := decide (-(2 ^ 31) ≤ v) && decide (v < 2 ^ 31)

/-- `n` bytes fit in one chunk when the longest chunk is `max` (`none`: unbounded; R7). -/
def fitsChunk (max : Option Nat) (n : Nat) : Bool :=
  match max with
  | none => true
  | some m => decide (n ≤ m)

/-- The operands of `i` are values its ports can carry. -/
def wellFormed (i : Instr) : Bool :=
  match i with
  | .reset | .portOpen | .portClose | .tmrfire | .tick => true
  | .dispatch cmd sub _ _ _ _ => fitsVal cmd && fitsVal sub
  | .rxchunk chunk => fitsChunk Config.rxChunkMax chunk.length
  | .mask8 v => fitsVal v
  | .encreq cmd sub => fitsVal cmd && fitsVal sub
  | .compl _ | .chkreq _ | .csum _ _ _ _ | .encrsp _ _ _ _ | .decrsp _ | .errdec _ | .classify _ _ => true
  | .rspOk _ _ _ _ | .rspError _ _ _ _ => fitsChunk Config.rxChunkMax Config.rspLen
  | .vend ch _ _ | .vendchk ch _ _ | .setbelt ch _ _ | .setspring ch _ _ | .mksingle ch _ _ | .mkdouble ch _ _
  | .chexists ch _ _ => fitsVal ch
  | .setpoint v _ _ | .hyst v _ _ | .comp v _ _ | .defrost v _ _ | .comprun v _ _ | .fandelay v _ _
  | .thermomode v _ _ => fitsVal v
  | .selftest _ _ | .resetall _ _ | .allspring _ _ | .allbelt _ _ | .allsingle _ _ | .repeatLast _ _ | .rdtemp _ _
  | .rddoor _ _ | .opendoor _ _ | .accelen _ _ => true
  | .glassheat _ _ _ | .light _ _ _ | .buzzer _ _ _ | .tempctl _ _ _ => true
  | .poll maxChannel _ _ _ => fitsVal maxChannel

end Sys2Proof
end

