-- ==== Sys2Proof/Machine/Operands.lean ====
section
/-! DEFINITION. Operand assembly and the arithmetic of the block (40_frame_codec.md R97): masking, the complement byte, the
checksum, the signed result byte, marker bytes, the descriptor table's columns and the byte forms of the port's operands. -/

namespace Sys2Proof.Machine

/-! ### Arithmetic on bytes -/

/-- MASK8: the low 8 bits of an integer (40_frame_codec.md R90, D24). -/
def maskByte (v : Int) : Byte := BitVec.ofInt 8 v

/-- COMPL: `(0xFF - x) & 0xFF` (40_frame_codec.md R91). -/
def complByte (x : Byte) : Byte := 0xFF#8 - x

/-- CSUM: the integer sum of four bytes, then its low 8 bits (40_frame_codec.md R94). -/
def checksum (g st d a : Byte) : Byte := BitVec.ofNat 8 (g.toNat + st.toNat + d.toNat + a.toNat)

/-- CSUM_ACC: the accumulator form, 8 bits wide, carries dropped (40_frame_codec.md R94). -/
def checksumAcc (bytes : List Byte) : Byte := bytes.foldl (fun acc b => acc + b) 0x00#8

/-- `sext_8`: the one signed result byte (30_encoding.md R67, 43_command_catalog.md R177). -/
def signedByte (d : Byte) : Int := if 0x80 ≤ d.toNat then (d.toNat : Int) - 0x100 else d.toNat

/-! ### The descriptor table (43_command_catalog.md R152) -/

/-- The row of the table a call belongs to. -/
def callOp (c : Call) : CatalogOp :=
  match c with
  | .channel op _ => .channel op
  | .plain op => .plain op
  | .value op _ => .value op
  | .toggle op _ => .toggle op

/-- Column `cmd`. Only channel existence has a byte the spec gives (30_encoding.md R66, R69). -/
def callCmd (c : Call) : Int :=
  match c with
  | .channel .vend ch => (Config.cmdVend ch).toNat
  | .channel .vendChk ch => (Config.cmdVendChk ch).toNat
  | .channel .setBelt _ => Config.cmdSetBelt.toNat
  | .channel .setSpring _ => Config.cmdSetSpring.toNat
  | .channel .mkSingle _ => Config.cmdMkSingle.toNat
  | .channel .mkDouble _ => Config.cmdMkDouble.toNat
  | .channel .chExists ch => Config.chexistsBase + ch
  | .plain op => (Config.cmdPlain op).toNat
  | .value op _ => (Config.cmdValue op).toNat
  | .toggle op _ => (Config.cmdToggle op).toNat

/-- The marker byte of a toggle: one of the two pairs of 00_scope.md R6, first value ON (30_encoding.md R64, D34). -/
def toggleMarker (op : ToggleOp) (on : Bool) : Byte :=
  if Config.toggleUsesAA op then (if on then 0xAA#8 else 0x55#8) else (if on then 0x01#8 else 0x00#8)

/-- Column `sub`; a numeric value is masked when the frame is encoded (30_encoding.md R65). -/
def callSub (c : Call) : Int :=
  match c with
  | .channel .vend _ => Config.markNoCheck.toNat
  | .channel .vendChk _ => Config.markCheck.toNat
  | .channel .setBelt ch | .channel .setSpring ch | .channel .mkSingle ch | .channel .mkDouble ch
  | .channel .chExists ch => ch
  | .plain .selfTest | .plain .resetAll | .plain .allSpring | .plain .allBelt | .plain .allSingle =>
    Config.markNoCheck.toNat
  | .plain .repeatLast => Config.subRepeat.toNat
  | .plain .rdTemp => Config.subRdTemp.toNat
  | .plain .rdDoor => Config.subRdDoor.toNat
  | .plain .openDoor | .plain .accelEn => Config.markAct.toNat
  | .value _ v => v
  | .toggle op on => (toggleMarker op on).toNat

/-- Column `allow`: only REPEAT and CHEXISTS set it. -/
def callAllow (c : Call) : Bool :=
  match c with
  | .channel .chExists _ | .plain .repeatLast => true
  | _ => false

/-- `DEFAULT_TMO_<OP>`, at least 1 (D19, assumption log 16). -/
def defaultTmo (op : CatalogOp) : Millis :=
  if Config.defaultTmoFree op = 0#32 then 1#32 else Config.defaultTmoFree op

/-- The timeout of a call: the one given, else the operation's default (43_command_catalog.md R151). -/
def callTmo (c : Call) (tmo : Option Millis) : Millis := tmo.getD (defaultTmo (callOp c))

/-- The channel argument of a call is in CH_MIN..CH_MAX, or it takes none (43_command_catalog.md R150). -/
def channelOk (c : Call) : Bool :=
  match c with
  | .channel _ ch => decide (Config.chMin ≤ ch) && decide (ch ≤ Config.chMax)
  | _ => true

/-- The poller's bound: `maxChannel` clamped into CH_MIN..CH_MAX (44_channel_poller.md R200, R201). -/
def clampChannel (maxChannel : Int) : Nat := (min (max maxChannel Config.chMin) Config.chMax).toNat

/-! ### The port's operand bytes (assumption log 1) -/

/-- The four bytes of a 32-bit operand, most significant first. -/
def bytesOfWord (w : BitVec 32) : List Byte :=
  [w.extractLsb' 24 8, w.extractLsb' 16 8, w.extractLsb' 8 8, w.extractLsb' 0 8]

/-- The 32-bit operand of four bytes, most significant first. -/
def wordOfBytes (b3 b2 b1 b0 : Byte) : BitVec 32 := ((b3 ++ b2 : BitVec 16) ++ (b1 ++ b0 : BitVec 16) : BitVec 32)

/-- The four bytes of a signed VAL_W-bit operand. -/
def bytesOfInt (v : Int) : List Byte := bytesOfWord (BitVec.ofInt 32 v)

/-- The byte of a one-bit operand. -/
def byteOfBool (b : Bool) : Byte := if b then 0x01#8 else 0x00#8

/-- The five bytes of an optional timeout: a presence flag and the timeout, zero when it is absent. -/
def bytesOfTmo (tmo : Option Millis) : List Byte :=
  match tmo with
  | none => 0x00#8 :: bytesOfWord 0#32
  | some t => 0x01#8 :: bytesOfWord t

/-- `n` bytes of the number `w`, the most significant first (30_encoding.md R60: byte 0 is the top byte of the word). -/
def bytesOfNat (n w : Nat) : List Byte :=
  match n with
  | 0 => []
  | k + 1 => BitVec.ofNat 8 (w / 256 ^ k) :: bytesOfNat k w

end Sys2Proof.Machine
end

