-- ==== Sys2Proof/Decode.lean ====
section
/-! DEFINITION. The decoder of the words at the input port, total on any bytes and rejecting by name, and the encoder beside it.
Operation numbers are those of 30_encoding.md R72, wire formats those of R60 to R62; the operand bytes that follow an operation
number are the model's (DESIGN CHOICE, assumption log 1). -/

namespace Sys2Proof

open Machine

/-- Why a word is no encoding of an operation. -/
inductive DecodeError where
  /-- an empty word of format `op` -/
  | emptyWord
  /-- an operation number that 30_encoding.md R72 does not assign to an operation with operands of this form -/
  | unknownOperation
  /-- the operand bytes are not as many as the operation takes -/
  | wrongLength
  /-- a one-bit operand's byte is neither 0 nor 1 -/
  | badFlag
  /-- an absent timeout whose four bytes are not zero -/
  | badTimeout
  /-- a word of format `req` that ENCREQ cannot write: group id or complement bytes wrong (30_encoding.md R70 items c, g) -/
  | badRequestFrame
  /-- a word of DISPATCH without a description -/
  | missingDescription
  /-- a description in a word of anything but DISPATCH -/
  | unexpectedDescription
deriving DecidableEq, Repr

/-! ### Operands -/

/-- A one-bit operand. -/
def readBool (b : Byte) : Except DecodeError Bool :=
  if b = 0x00#8 then .ok false else if b = 0x01#8 then .ok true else .error .badFlag

/-- An optional timeout: its presence flag and its four bytes. -/
def readTmo (f b3 b2 b1 b0 : Byte) : Except DecodeError (Option Millis) :=
  if f = 0x01#8 then .ok (some (wordOfBytes b3 b2 b1 b0))
  else if f = 0x00#8 then (if wordOfBytes b3 b2 b1 b0 = 0#32 then .ok none else .error .badTimeout)
  else .error .badFlag

/-- A signed VAL_W-bit operand. -/
def readInt (b3 b2 b1 b0 : Byte) : Int := (wordOfBytes b3 b2 b1 b0).toInt

/-- No operand. -/
def decodeNone (i : Instr) (bs : List Byte) : Except DecodeError Instr :=
  match bs with
  | [] => .ok i
  | _ => .error .wrongLength

/-- One byte. -/
def decodeByte (k : Byte → Instr) (bs : List Byte) : Except DecodeError Instr :=
  match bs with
  | [x] => .ok (k x)
  | _ => .error .wrongLength

/-- Four bytes. -/
def decodeFour (k : Byte → Byte → Byte → Byte → Instr) (bs : List Byte) : Except DecodeError Instr :=
  match bs with
  | [g, st, d, a] => .ok (k g st d a)
  | _ => .error .wrongLength

/-- One number. -/
def decodeInt (k : Int → Instr) (bs : List Byte) : Except DecodeError Instr :=
  match bs with
  | [v3, v2, v1, v0] => .ok (k (readInt v3 v2 v1 v0))
  | _ => .error .wrongLength

/-- Two numbers. -/
def decodeTwoInts (k : Int → Int → Instr) (bs : List Byte) : Except DecodeError Instr :=
  match bs with
  | [c3, c2, c1, c0, s3, s2, s1, s0] => .ok (k (readInt c3 c2 c1 c0) (readInt s3 s2 s1 s0))
  | _ => .error .wrongLength

/-- DISPATCH's operand record (30_encoding.md R73): cmd, sub, tmo, allow, wr_ok, and beside these bytes the description. -/
def decodeDispatch (desc : Desc) (bs : List Byte) : Except DecodeError Instr :=
  match bs with
  | [c3, c2, c1, c0, s3, s2, s1, s0, t3, t2, t1, t0, al, wr] =>
    (readBool al).bind fun allow => (readBool wr).bind fun wrOk =>
      .ok (.dispatch (readInt c3 c2 c1 c0) (readInt s3 s2 s1 s0) (wordOfBytes t3 t2 t1 t0) desc allow wrOk)
  | _ => .error .wrongLength

/-- CLASSIFY's operands: allow, then the frame. -/
def decodeClassify (bs : List Byte) : Except DecodeError Instr :=
  match bs with
  | al :: frame => (readBool al).bind fun allow => .ok (.classify frame allow)
  | _ => .error .wrongLength

/-- The operands of a catalog operation without an argument: the optional timeout and wr_ok. -/
def decodePlainCall (k : Option Millis → Bool → Instr) (bs : List Byte) : Except DecodeError Instr :=
  match bs with
  | [f, t3, t2, t1, t0, wr] =>
    (readTmo f t3 t2 t1 t0).bind fun tmo => (readBool wr).bind fun wrOk => .ok (k tmo wrOk)
  | _ => .error .wrongLength

/-- The operands of a catalog operation with a channel or a number. -/
def decodeIntCall (k : Int → Option Millis → Bool → Instr) (bs : List Byte) : Except DecodeError Instr :=
  match bs with
  | v3 :: v2 :: v1 :: v0 :: rest => decodePlainCall (k (readInt v3 v2 v1 v0)) rest
  | _ => .error .wrongLength

/-- The operands of a toggle. -/
def decodeToggleCall (k : Bool → Option Millis → Bool → Instr) (bs : List Byte) : Except DecodeError Instr :=
  match bs with
  | o :: rest => (readBool o).bind fun on => decodePlainCall (k on) rest
  | _ => .error .wrongLength

/-- POLL's operands: maxChannel, interChannelDelayMs, perRequestTimeoutMs, wr_ok. -/
def decodePoll (bs : List Byte) : Except DecodeError Instr :=
  match bs with
  | [m3, m2, m1, m0, d3, d2, d1, d0, t3, t2, t1, t0, wr] =>
    (readBool wr).bind fun wrOk =>
      .ok (.poll (readInt m3 m2 m1 m0) (wordOfBytes d3 d2 d1 d0) (wordOfBytes t3 t2 t1 t0) wrOk)
  | _ => .error .wrongLength

/-! ### The decoder -/

/-- An operation by its number (30_encoding.md R72), `bs` its operand bytes, in a word that carries no description. -/
def decodeOp (opn : Nat) (bs : List Byte) : Except DecodeError Instr :=
  match opn with
  | 0x00 => decodeNone .reset bs
  | 0x01 => decodeNone .portOpen bs
  | 0x02 => decodeNone .portClose bs
  | 0x03 => .error .missingDescription
  | 0x04 => if fitsChunk Config.rxChunkMax bs.length then .ok (.rxchunk bs) else .error .wrongLength
  | 0x05 => decodeNone .tmrfire bs
  | 0x06 => decodeNone .tick bs
  | 0x10 => decodeInt .mask8 bs
  | 0x11 => decodeByte .compl bs
  | 0x12 => decodeTwoInts .encreq bs
  | 0x13 => .ok (.chkreq bs)
  | 0x14 => decodeFour .csum bs
  | 0x15 => decodeFour .encrsp bs
  | 0x16 => .ok (.decrsp bs)
  | 0x17 => decodeByte .errdec bs
  | 0x18 => decodeClassify bs
  | 0x20 => decodeIntCall .vend bs
  | 0x21 => decodeIntCall .vendchk bs
  | 0x22 => decodePlainCall .selftest bs
  | 0x23 => decodePlainCall .resetall bs
  | 0x24 => decodePlainCall .allspring bs
  | 0x25 => decodePlainCall .allbelt bs
  | 0x26 => decodePlainCall .allsingle bs
  | 0x27 => decodePlainCall .repeatLast bs
  | 0x28 => decodeIntCall .setbelt bs
  | 0x29 => decodeIntCall .setspring bs
  | 0x2A => decodeIntCall .mksingle bs
  | 0x2B => decodeIntCall .mkdouble bs
  | 0x2C => decodeIntCall .chexists bs
  | 0x2D => decodeIntCall .setpoint bs
  | 0x2E => decodeIntCall .hyst bs
  | 0x2F => decodeIntCall .comp bs
  | 0x30 => decodeIntCall .defrost bs
  | 0x31 => decodeIntCall .comprun bs
  | 0x32 => decodeIntCall .fandelay bs
  | 0x33 => decodeToggleCall .glassheat bs
  | 0x34 => decodeToggleCall .light bs
  | 0x35 => decodeToggleCall .buzzer bs
  | 0x36 => decodeToggleCall .tempctl bs
  | 0x37 => decodeIntCall .thermomode bs
  | 0x38 => decodePlainCall .rdtemp bs
  | 0x39 => decodePlainCall .rddoor bs
  | 0x3A => decodePlainCall .opendoor bs
  | 0x3B => decodePlainCall .accelen bs
  | 0x40 => decodePoll bs
  | _ => .error .unknownOperation

/-- A request frame (30_encoding.md R60): the ENCREQ that writes it. A frame no ENCREQ writes is rejected (R70 items c, g). Which
catalog operation sent a frame cannot be told (R69), so no frame is read as one. -/
def decodeRequestFrame (bs : List Byte) : Except DecodeError Instr :=
  match bs with
  | [g, g', c, c', s, s'] =>
    if g = Config.groupId ∧ g' = complByte g ∧ c' = complByte c ∧ s' = complByte s then
      .ok (.encreq c.toNat s.toNat)
    else .error .badRequestFrame
  | _ => .error .wrongLength

/-- A response frame (30_encoding.md R61): the two rows with a legal status, else the frame is DECRSP's operand. -/
def decodeResponseFrame (bs : List Byte) : Except DecodeError Instr :=
  match bs with
  | [g, st, d, a, k] =>
    if st = Config.stOk then .ok (.rspOk g d a k)
    else if st = Config.stError then .ok (.rspError g d a k)
    else .ok (.decrsp [g, st, d, a, k])
  | _ => .error .wrongLength

/-- An operation in a word that carries a description: DISPATCH alone (30_encoding.md R73). -/
def decodeDescribed (desc : Desc) (opn : Nat) (bs : List Byte) : Except DecodeError Instr :=
  match opn with
  | 0x03 => decodeDispatch desc bs
  | _ => .error .unexpectedDescription

/-- The operation a word at the input port stands for. -/
def decode (w : PortWord) : Except DecodeError Instr :=
  match w.format, w.desc with
  | .op, desc =>
    match w.bytes with
    | [] => .error .emptyWord
    | o :: rest =>
      match desc with
      | none => decodeOp o.toNat rest
      | some d => decodeDescribed d o.toNat rest
  | .req, none => decodeRequestFrame w.bytes
  | .rsp, none => decodeResponseFrame w.bytes
  | .errd, none => decodeByte .errdec w.bytes
  | _, some _ => .error .unexpectedDescription

/-! ### The encoder -/

/-- A word of format `op` without a description. -/
def opWord (opn : Byte) (operands : List Byte) : PortWord := ⟨.op, opn :: operands, none⟩

/-- A word of format `op` with a description. -/
def describedWord (desc : Desc) (opn : Byte) (operands : List Byte) : PortWord := ⟨.op, opn :: operands, some desc⟩

/-- The operand bytes of a catalog operation after its argument. -/
def callBytes (tmo : Option Millis) (wrOk : Bool) : List Byte := bytesOfTmo tmo ++ [byteOfBool wrOk]

/-- The word of an operation: its number (30_encoding.md R72) and operands, or for the two rows without a number the response
frame itself (R61, R63). -/
def encode (i : Instr) : PortWord :=
  match i with
  | .reset => opWord 0x00#8 []
  | .portOpen => opWord 0x01#8 []
  | .portClose => opWord 0x02#8 []
  | .dispatch cmd sub tmo desc allow wrOk =>
    describedWord desc 0x03#8 (bytesOfInt cmd ++ bytesOfInt sub ++ bytesOfWord tmo ++ [byteOfBool allow, byteOfBool wrOk])
  | .rxchunk chunk => opWord 0x04#8 chunk
  | .tmrfire => opWord 0x05#8 []
  | .tick => opWord 0x06#8 []
  | .mask8 v => opWord 0x10#8 (bytesOfInt v)
  | .compl x => opWord 0x11#8 [x]
  | .encreq cmd sub => opWord 0x12#8 (bytesOfInt cmd ++ bytesOfInt sub)
  | .chkreq bytes => opWord 0x13#8 bytes
  | .csum g st d a => opWord 0x14#8 [g, st, d, a]
  | .encrsp g st d a => opWord 0x15#8 [g, st, d, a]
  | .decrsp bytes => opWord 0x16#8 bytes
  | .errdec data => opWord 0x17#8 [data]
  | .classify frame allow => opWord 0x18#8 (byteOfBool allow :: frame)
  | .rspOk g d a k => ⟨.rsp, [g, Config.stOk, d, a, k], none⟩
  | .rspError g d a k => ⟨.rsp, [g, Config.stError, d, a, k], none⟩
  | .vend ch tmo wrOk => opWord 0x20#8 (bytesOfInt ch ++ callBytes tmo wrOk)
  | .vendchk ch tmo wrOk => opWord 0x21#8 (bytesOfInt ch ++ callBytes tmo wrOk)
  | .selftest tmo wrOk => opWord 0x22#8 (callBytes tmo wrOk)
  | .resetall tmo wrOk => opWord 0x23#8 (callBytes tmo wrOk)
  | .allspring tmo wrOk => opWord 0x24#8 (callBytes tmo wrOk)
  | .allbelt tmo wrOk => opWord 0x25#8 (callBytes tmo wrOk)
  | .allsingle tmo wrOk => opWord 0x26#8 (callBytes tmo wrOk)
  | .repeatLast tmo wrOk => opWord 0x27#8 (callBytes tmo wrOk)
  | .setbelt ch tmo wrOk => opWord 0x28#8 (bytesOfInt ch ++ callBytes tmo wrOk)
  | .setspring ch tmo wrOk => opWord 0x29#8 (bytesOfInt ch ++ callBytes tmo wrOk)
  | .mksingle ch tmo wrOk => opWord 0x2A#8 (bytesOfInt ch ++ callBytes tmo wrOk)
  | .mkdouble ch tmo wrOk => opWord 0x2B#8 (bytesOfInt ch ++ callBytes tmo wrOk)
  | .chexists ch tmo wrOk => opWord 0x2C#8 (bytesOfInt ch ++ callBytes tmo wrOk)
  | .setpoint v tmo wrOk => opWord 0x2D#8 (bytesOfInt v ++ callBytes tmo wrOk)
  | .hyst v tmo wrOk => opWord 0x2E#8 (bytesOfInt v ++ callBytes tmo wrOk)
  | .comp v tmo wrOk => opWord 0x2F#8 (bytesOfInt v ++ callBytes tmo wrOk)
  | .defrost v tmo wrOk => opWord 0x30#8 (bytesOfInt v ++ callBytes tmo wrOk)
  | .comprun v tmo wrOk => opWord 0x31#8 (bytesOfInt v ++ callBytes tmo wrOk)
  | .fandelay v tmo wrOk => opWord 0x32#8 (bytesOfInt v ++ callBytes tmo wrOk)
  | .glassheat on tmo wrOk => opWord 0x33#8 (byteOfBool on :: callBytes tmo wrOk)
  | .light on tmo wrOk => opWord 0x34#8 (byteOfBool on :: callBytes tmo wrOk)
  | .buzzer on tmo wrOk => opWord 0x35#8 (byteOfBool on :: callBytes tmo wrOk)
  | .tempctl on tmo wrOk => opWord 0x36#8 (byteOfBool on :: callBytes tmo wrOk)
  | .thermomode v tmo wrOk => opWord 0x37#8 (bytesOfInt v ++ callBytes tmo wrOk)
  | .rdtemp tmo wrOk => opWord 0x38#8 (callBytes tmo wrOk)
  | .rddoor tmo wrOk => opWord 0x39#8 (callBytes tmo wrOk)
  | .opendoor tmo wrOk => opWord 0x3A#8 (callBytes tmo wrOk)
  | .accelen tmo wrOk => opWord 0x3B#8 (callBytes tmo wrOk)
  | .poll maxChannel delay tmo wrOk =>
    opWord 0x40#8 (bytesOfInt maxChannel ++ bytesOfWord delay ++ bytesOfWord tmo ++ [byteOfBool wrOk])

/-- The operation number `opn` (30_encoding.md R72); the two rows RSP.OK and RSP.ERROR have none (R77). -/
def operationNumber (i : Instr) : Option Byte :=
  match i with
  | .reset => some 0x00#8
  | .portOpen => some 0x01#8
  | .portClose => some 0x02#8
  | .dispatch _ _ _ _ _ _ => some 0x03#8
  | .rxchunk _ => some 0x04#8
  | .tmrfire => some 0x05#8
  | .tick => some 0x06#8
  | .mask8 _ => some 0x10#8
  | .compl _ => some 0x11#8
  | .encreq _ _ => some 0x12#8
  | .chkreq _ => some 0x13#8
  | .csum _ _ _ _ => some 0x14#8
  | .encrsp _ _ _ _ => some 0x15#8
  | .decrsp _ => some 0x16#8
  | .errdec _ => some 0x17#8
  | .classify _ _ => some 0x18#8
  | .vend _ _ _ => some 0x20#8
  | .vendchk _ _ _ => some 0x21#8
  | .selftest _ _ => some 0x22#8
  | .resetall _ _ => some 0x23#8
  | .allspring _ _ => some 0x24#8
  | .allbelt _ _ => some 0x25#8
  | .allsingle _ _ => some 0x26#8
  | .repeatLast _ _ => some 0x27#8
  | .setbelt _ _ _ => some 0x28#8
  | .setspring _ _ _ => some 0x29#8
  | .mksingle _ _ _ => some 0x2A#8
  | .mkdouble _ _ _ => some 0x2B#8
  | .chexists _ _ _ => some 0x2C#8
  | .setpoint _ _ _ => some 0x2D#8
  | .hyst _ _ _ => some 0x2E#8
  | .comp _ _ _ => some 0x2F#8
  | .defrost _ _ _ => some 0x30#8
  | .comprun _ _ _ => some 0x31#8
  | .fandelay _ _ _ => some 0x32#8
  | .glassheat _ _ _ => some 0x33#8
  | .light _ _ _ => some 0x34#8
  | .buzzer _ _ _ => some 0x35#8
  | .tempctl _ _ _ => some 0x36#8
  | .thermomode _ _ _ => some 0x37#8
  | .rdtemp _ _ => some 0x38#8
  | .rddoor _ _ => some 0x39#8
  | .opendoor _ _ => some 0x3A#8
  | .accelen _ _ => some 0x3B#8
  | .poll _ _ _ _ => some 0x40#8
  | .rspOk _ _ _ _ | .rspError _ _ _ _ => none

/-! ### Words as spec/opcode_table.json numbers their bits -/

/-- How many operand bytes the smallest word of an operation has whose row of the table is its 8-bit number, `none` where the
number's row is not an 8-bit pattern (30_encoding.md R77; opcode_table.json). -/
def tableOperandBytes (opn : Nat) : Option Nat :=
  match opn with
  | 0x00 | 0x01 | 0x02 | 0x04 | 0x05 | 0x06 | 0x13 => some 0
  | 0x03 => some 14
  | 0x10 | 0x14 => some 4
  | 0x11 | 0x18 => some 1
  | 0x40 => some 13
  | _ => none

/-- The word of a table row: the row's `nbits` bits read as one number `w` whose bit 0 is the least significant, byte 0 of a
frame being its top byte (30_encoding.md R60, R61; assumption log 2), operand bytes the row does not number being zero and
DISPATCH's description `Config.tableDesc`. Where several rows match a word the one that fixes most bits is taken (assumption log 3). -/
def tableWord (nbits w : Nat) : PortWord :=
  if nbits ≤ 8 then
    match tableOperandBytes (w % 256) with
    | some n =>
      ⟨.op, BitVec.ofNat 8 w :: List.replicate n 0x00#8, if w % 256 = 0x03 then some Config.tableDesc else none⟩
    | none => ⟨.errd, [BitVec.ofNat 8 w], none⟩
  else if nbits ≤ 40 then ⟨.rsp, bytesOfNat Config.rspLen w, none⟩
  else ⟨.req, bytesOfNat Config.reqLen w, none⟩

/-- The instruction the decoder reads from a table row's word, `none` where it rejects it. -/
def decodeTableWord (nbits w : Nat) : Option Instr :=
  match decode (tableWord nbits w) with
  | .ok i => some i
  | .error _ => none

end Sys2Proof
end

