-- ==== Sys2Proof/Machine/State.lean ====
section
/-! DEFINITION. The state of SSD-FE as plain data: the six architectural elements of 10_state.md R20, the calls in progress of the
layered sequencers (R35), and the model's own event list and output trace; the records they hold, the reasons a step can stop, and
the state after reset (R30). -/

namespace Sys2Proof.Machine

/-! ### Results and outputs -/

/-- A parsed response frame (30_encoding.md R74): the four fields and the five bytes as received. -/
structure Frame where
  groupId : Byte
  status : Byte
  data : Byte
  aux : Byte
  raw : List Byte
deriving DecidableEq, Repr

/-- The labels of the mechanical table (41_error_decoder.md R111). -/
inductive MechText where
  | ok | pMosfetShort | nMosfetShort | motorShort | motorOpen | motorRotationTimeout | unknown
deriving DecidableEq, Repr

/-- The labels of the optical table (41_error_decoder.md R112). -/
inductive OptText where
  | ok | falseTrigger | noSignalOnToggle | ambiguousConstantSignalDuringVend | unknown
deriving DecidableEq, Repr

/-- What ERRDEC returns (41_error_decoder.md R110). -/
structure ErrorInfo where
  mechanicalCode : Nibble
  mechanicalText : MechText
  opticalCode : Nibble
  opticalText : OptText
deriving DecidableEq, Repr

/-- The two causes of PORT_NOT_OPEN (60_exceptions.md R221, R222). -/
inductive PortReason where
  | closed | writeRejected
deriving DecidableEq, Repr

/-- The three causes of INVALID_ARGUMENT with the offending value (60_exceptions.md R221, R227). -/
inductive ArgumentReason where
  | channel (ch : Int)
  | timeout (timeoutMs : Millis)
  | requestInProgress
deriving DecidableEq, Repr

/-- The closed failure taxonomy with the details each failure records (60_exceptions.md R220, R221). -/
inductive Failure where
  | portNotOpen (reason : PortReason)
  | commTimeout (elapsedMs : Time) (timeoutMs : Millis) (description : Desc)
  | badLength (length : Nat) (raw : List Byte)
  | badChecksum (expected received : Byte) (raw : List Byte)
  | unexpectedStatus (status data aux : Byte) (raw : List Byte)
  | invalidArgument (reason : ArgumentReason)
  | controllerError (status data aux : Byte) (info : ErrorInfo) (raw : List Byte)
deriving DecidableEq, Repr

/-- The result record of the `DONE` and `REJECT` ports, and of DECRSP and CLASSIFY (30_encoding.md R74). -/
inductive Result where
  | ok (frame : Frame)
  | fail (f : Failure)
deriving DecidableEq, Repr

/-- What CHKREQ returns (40_frame_codec.md R93): the fields, a wrong length, or the pairs that disagree (each by its even index). -/
inductive RequestCheck where
  | valid (groupId cmd sub : Byte)
  | invalidLength
  | invalidPairs (bad : List Nat)
deriving DecidableEq, Repr

/-- The value a pure function returns. -/
inductive FunctionValue where
  | byte (b : Byte)
  | bytes (bs : List Byte)
  | check (c : RequestCheck)
  | result (r : Result)
  | errorInfo (e : ErrorInfo)
deriving DecidableEq, Repr

/-- The two door states (43_command_catalog.md R178). -/
inductive Door where
  | opened | closed
deriving DecidableEq, Repr

/-- What a catalog operation reads from an `Ok` frame beyond the frame itself (43_command_catalog.md R152, last but one column). -/
inductive Reading where
  | frameOnly
  | channel (ch : Int)
  | dropped (ch : Int) (dropped : Bool)
  | existence (ch : Int) (present : Bool)
  | temperature (celsius : Int)
  | door (d : Door)
deriving DecidableEq, Repr

/-- What EXEC returns (43_command_catalog.md R151): every failure unchanged, or the interpretation with its frame. -/
inductive CallResult where
  | ok (reading : Reading) (frame : Frame)
  | fail (f : Failure)
deriving DecidableEq, Repr

/-- The four outcomes of a probe (44_channel_poller.md R204). -/
inductive ProbeOutcome where
  | ok | timeout | controllerError | protocolError
deriving DecidableEq, Repr

/-- One entry of POLL's list (44_channel_poller.md R200); `present` is its field `exists`. -/
structure ProbeEntry where
  channel : Nat
  present : Bool
  outcome : ProbeOutcome
deriving DecidableEq, Repr

/-- The one log record the spec has: stray bytes (60_exceptions.md R242, D26). -/
inductive LogRecord where
  | stray (hex : List Byte)
deriving DecidableEq, Repr

/-- The outputs of the block and of the layers above it: the ports TX, DONE, REJECT and LOG (60_exceptions.md R240 to R242), the value
of a function, and what a catalog call (R151) or a POLL (R200) returns to its caller. -/
inductive Output where
  | tx (frame : List Byte)
  | done (r : Result)
  | reject (f : Failure)
  | log (record : LogRecord)
  | value (v : FunctionValue)
  | returned (call : Call) (r : CallResult)
  | polled (entries : List ProbeEntry)
deriving DecidableEq, Repr

/-! ### State elements -/

/-- `ST` (10_state.md R21). -/
inductive Phase where
  | idle | awaitingReply
deriving DecidableEq, Repr

/-- The PendingRequest record `P` (10_state.md R24). -/
structure Pending where
  desc : Desc
  allow : Bool
  tmo : Millis
  t0 : Time
deriving DecidableEq, Repr

/-- The locals of one POLL call (10_state.md R35, 44_channel_poller.md R200): its clamped bound, its operands, the channel it probes or
will probe next, the list so far, and the NOW at which its previous probe returned (R202). -/
structure PollCall where
  bound : Nat
  delay : Millis
  tmo : Millis
  channel : Nat
  results : List ProbeEntry
  since : Time
deriving DecidableEq, Repr

/-- Who waits for the DONE of the pending request (42_correlator.md R134, D32): a host that drives DISPATCH, a catalog call (R151),
or a poll at one of its probes (R200). -/
inductive Caller where
  | host
  | call (c : Call)
  | poll (p : PollCall)
deriving DecidableEq, Repr

/-- One entry of the event list: a word at the input port, or a turn of the `index`-th paused poll, with the transport's answer to
the write of its probe (assumption log 12). -/
inductive InputEvent where
  | word (w : PortWord)
  | pollTurn (index : Nat) (wrOk : Bool)
deriving DecidableEq, Repr

/-- The state of one SSD-FE instance and of the sequencers above it. -/
structure State where
  /-- S0 `ST` (10_state.md R21) -/
  st : Phase
  /-- S1 `PORT_OPEN` (R22) -/
  portOpen : Bool
  /-- S2 `RXBUF` (R23), index 0 first -/
  rxbuf : List Byte
  /-- S3 `P` (R24) -/
  p : Option Pending
  /-- S4 `TMR_ARMED` (R25) -/
  tmrArmed : Bool
  /-- S5 `NOW` (R26) -/
  now : Time
  /-- who waits for DONE (R35; assumption log 11) -/
  caller : Caller
  /-- the polls between two probes (R35; assumption log 11) -/
  polls : List PollCall
  /-- the model's own: the events not yet processed, oldest first (assumption log 4) -/
  input : List InputEvent
  /-- the model's own: the outputs emitted, oldest first (10_state.md R29 item e; assumption log 5) -/
  trace : List Output
deriving DecidableEq, Repr

/-! ### Why a step can stop -/

/-- The faults. -/
inductive Fault where
  /-- Raised by RXCHUNK (and the frames RSP.OK, RSP.ERROR), TMRFIRE and TICK when `ST = AwaitingReply` and `P` has no value: the "fault of
  the model" of 10_state.md R30. Safe: no run from reset reaches it (R28 invariant I2). -/
  | noPendingRequest
deriving DecidableEq, Repr

/-- The refusals. -/
inductive Refusal where
  /-- Raised by an arm of `exec` whose instruction has no meaning yet. Safe. -/
  | notModelled (mnemonic : String)
  /-- Raised by `step` on a word that is no encoding of an operation (assumption log 1). Safe. -/
  | undecodable (why : DecodeError)
  /-- Raised by TMRFIRE when it is not enabled: "the event cannot occur" (42_correlator.md R127). Safe. -/
  | timerNotEnabled
  /-- Raised by TICK while a deadline is due: TICK is disabled (42_correlator.md R128). Safe. -/
  | tickNotEnabled
deriving DecidableEq, Repr

/-! ### Reset -/

/-- The state after RESET at power-on (10_state.md R30, 70_reset_and_hazards.md R260). `now` is unspecified there and 0 here (DESIGN
CHOICE, assumption log 6); no call is in progress, no event is given, nothing has been emitted. -/
def State.reset : State where
  st := .idle
  portOpen := false
  rxbuf := []
  p := none
  tmrArmed := false
  now := 0#64
  caller := .host
  polls := []
  input := []
  trace := []

end Sys2Proof.Machine
end

