-- ==== Sys2Proof/Machine/Frames.lean ====
section
/-! DEFINITION. The datapath functions on frames: the codec (40_frame_codec.md R92 to R96), the error decoder (41_error_decoder.md
R110 to R112), CLASSIFY (42_correlator.md R125) and the failure numbers (60_exceptions.md R220). None reads state. -/

namespace Sys2Proof.Machine

/-- ENCREQ (40_frame_codec.md R92). -/
def encodeRequest (cmd sub : Int) : List Byte :=
  [Config.groupId, complByte Config.groupId, maskByte cmd, complByte (maskByte cmd), maskByte sub, complByte (maskByte sub)]

/-- The even indices of the pairs of a six-byte frame whose odd byte is not the complement of its even byte (R93). -/
def badPairs (b0 b1 b2 b3 b4 b5 : Byte) : List Nat :=
  (if b1 = complByte b0 then [] else [0]) ++ (if b3 = complByte b2 then [] else [2]) ++
    (if b5 = complByte b4 then [] else [4])

/-- CHKREQ (40_frame_codec.md R93). The group id is returned, not compared (assumption log 17). -/
def checkRequest (bytes : List Byte) : RequestCheck :=
  match bytes with
  | [b0, b1, b2, b3, b4, b5] =>
    if badPairs b0 b1 b2 b3 b4 b5 = [] then .valid b0 b2 b4 else .invalidPairs (badPairs b0 b1 b2 b3 b4 b5)
  | _ => .invalidLength

/-- ENCRSP (40_frame_codec.md R95). -/
def encodeResponse (g st d a : Byte) : List Byte := [g, st, d, a, checksum g st d a]

/-- DECRSP: length first, checksum second, no other test (40_frame_codec.md R96). -/
def decodeResponse (bytes : List Byte) : Result :=
  match bytes with
  | [g, st, d, a, k] =>
    if checksum g st d a = k then .ok ⟨g, st, d, a, bytes⟩ else .fail (.badChecksum (checksum g st d a) k bytes)
  | _ => .fail (.badLength bytes.length bytes)

/-- MECH_TEXT (41_error_decoder.md R111). -/
def mechText (code : Nibble) : MechText :=
  match code.toNat with
  | 0 => .ok
  | 1 => .pMosfetShort
  | 2 => .nMosfetShort
  | 3 => .motorShort
  | 4 => .motorOpen
  | 5 => .motorRotationTimeout
  | _ => .unknown

/-- OPT_TEXT (41_error_decoder.md R112). -/
def optText (code : Nibble) : OptText :=
  match code.toNat with
  | 0 => .ok
  | 1 => .falseTrigger
  | 2 => .noSignalOnToggle
  | 3 => .ambiguousConstantSignalDuringVend
  | _ => .unknown

/-- ERRDEC (41_error_decoder.md R110). -/
def decodeError (data : Byte) : ErrorInfo :=
  let mech : Nibble := data.extractLsb' 4 4
  let opt : Nibble := data.extractLsb' 0 4
  ⟨mech, mechText mech, opt, optText opt⟩

/-- CLASSIFY after DECRSP: unknown status, then controller error (42_correlator.md R125). -/
def classifyFrame (f : Frame) (allow : Bool) : Result :=
  if f.status ≠ Config.stOk ∧ f.status ≠ Config.stError then .fail (.unexpectedStatus f.status f.data f.aux f.raw)
  else if f.status = Config.stError ∧ allow = false then
    .fail (.controllerError f.status f.data f.aux (decodeError f.data) f.raw)
  else .ok f

/-- CLASSIFY (42_correlator.md R125). -/
def classify (frame : List Byte) (allow : Bool) : Result :=
  match decodeResponse frame with
  | .ok f => classifyFrame f allow
  | .fail e => .fail e

/-- The number of a failure code (60_exceptions.md R220, D4). -/
def failureNumber (f : Failure) : BitVec 3 :=
  match f with
  | .portNotOpen _ => 1#3
  | .commTimeout _ _ _ => 2#3
  | .badLength _ _ => 3#3
  | .badChecksum _ _ _ => 4#3
  | .unexpectedStatus _ _ _ _ => 5#3
  | .invalidArgument _ => 6#3
  | .controllerError _ _ _ _ _ => 7#3

/-- The `code` field of a result record, 0 for an `Ok` result (60_exceptions.md R220). -/
def resultNumber (r : Result) : BitVec 3 :=
  match r with
  | .ok _ => 0#3
  | .fail f => failureNumber f

end Sys2Proof.Machine
end

