-- ==== Sys2Proof/Machine/Flags.lean ====
section
/-! DEFINITION. Conditions on the state. SSD-FE has no flags and no condition codes (10_state.md R32); what its rules test is
computed here: elapsed times, due deadlines, and the enabling conditions of TMRFIRE and TICK. -/

namespace Sys2Proof.Machine

/-- The time since `t0`, modulo 2^64 (10_state.md R26). -/
def elapsedSince (t0 now : Time) : Time := now - t0

/-- The pending request's deadline is due: `(NOW - P.t0) mod 2^64 >= P.tmo` (42_correlator.md R127). -/
def requestDue (r : Pending) (now : Time) : Bool := decide (r.tmo.toNat ≤ (elapsedSince r.t0 now).toNat)

/-- The poller's wait is over: NOW has advanced by `interChannelDelayMs` since its previous probe returned
(44_channel_poller.md R202). -/
def pollReady (p : PollCall) (now : Time) : Bool := decide (p.delay.toNat ≤ (elapsedSince p.since now).toNat)

/-- A deadline is due in state `s`: the condition that enables TMRFIRE and disables TICK (42_correlator.md R127, R128). -/
def deadlineDue (s : State) : Bool :=
  decide (s.st = .awaitingReply) && (match s.p with | some r => requestDue r s.now | none => false)

end Sys2Proof.Machine
end

