-- ==== Sys2Proof/Machine/Ops.lean ====
section
/-! DEFINITION. The named operations over the state: outputs, the four primitives of the receive buffer (20_memory.md R41), the end of
a request, its completion with a result ("trap entry", 60_exceptions.md R233), a rejection, DISPATCH (42_correlator.md R122), the
delivery of received bytes (R124), and the two sequencers' issue of an operation (43_command_catalog.md R151). -/

namespace Sys2Proof.Machine

/-! ### Outputs -/

/-- `emit`: append one output to the trace (00_scope.md R12). -/
def State.emit (s : State) (o : Output) : State := { s with trace := s.trace ++ [o] }

/-- The value of a pure function, returned to whoever invoked it; no other effect (D1, assumption log 5). -/
def State.answer (s : State) (v : FunctionValue) : State := s.emit (.value v)

/-! ### The receive buffer (20_memory.md R41) -/

/-- `MemAppend(bytes)`. -/
def State.memAppend (s : State) (bytes : List Byte) : State := { s with rxbuf := s.rxbuf ++ bytes }

/-- `MemRead(a, n)` (00_scope.md R11). -/
def State.memRead (s : State) (a n : Nat) : List Byte := (s.rxbuf.drop a).take n

/-- `MemDrop(n)`. -/
def State.memDrop (s : State) (n : Nat) : State := { s with rxbuf := s.rxbuf.drop n }

/-- `MemClear()`. -/
def State.memClear (s : State) : State := { s with rxbuf := [] }

/-! ### The pending request -/

/-- `TMR_ARMED <- 0; P <- none; ST <- Idle`: the request is gone and nobody waits for it (42_correlator.md R124, R127). -/
def State.endRequest (s : State) : State :=
  { s with st := .idle, p := none, tmrArmed := false, caller := .host }

/-- The accepted row of DISPATCH: `P` set, timer armed, `ST <- AwaitingReply` (42_correlator.md R122). -/
def State.startRequest (s : State) (c : Caller) (desc : Desc) (allow : Bool) (tmo : Millis) : State :=
  { s with st := .awaitingReply, p := some ⟨desc, allow, tmo, s.now⟩, tmrArmed := true, caller := c }

/-! ### Interpretation of a result by the sequencers -/

/-- A catalog operation's reading of an `Ok` frame (43_command_catalog.md R152 to R180, R182). -/
def interpret (c : Call) (f : Frame) : Reading :=
  match c with
  | .channel .vendChk ch => .dropped ch (decide (f.aux = Config.markCheck))
  | .channel .chExists ch => .existence ch (decide (f.status = Config.stOk))
  | .channel .vend ch | .channel .setBelt ch | .channel .setSpring ch | .channel .mkSingle ch
  | .channel .mkDouble ch => .channel ch
  | .plain .rdTemp => .temperature (signedByte f.data)
  | .plain .rdDoor => .door (if f.data = Config.doorOpenData then .opened else .closed)
  | .plain .selfTest | .plain .resetAll | .plain .allSpring | .plain .allBelt | .plain .allSingle
  | .plain .repeatLast | .plain .openDoor | .plain .accelEn => .frameOnly
  | .value _ _ => .frameOnly
  | .toggle _ _ => .frameOnly

/-- What EXEC returns for a result (43_command_catalog.md R151): failures pass through unchanged. -/
def callResult (c : Call) (r : Result) : CallResult :=
  match r with
  | .ok f => .ok (interpret c f) f
  | .fail e => .fail e

/-- The entry POLL makes of a probe's result (44_channel_poller.md R200, R204). -/
def probeEntry (channel : Nat) (r : Result) : ProbeEntry :=
  match r with
  | .ok f => ⟨channel, decide (f.status = Config.stOk), .ok⟩
  | .fail (.commTimeout _ _ _) => ⟨channel, false, .timeout⟩
  | .fail (.controllerError _ _ _ _ _) => ⟨channel, false, .controllerError⟩
  | .fail _ => ⟨channel, false, .protocolError⟩

/-- A probe of poll `p` has returned: the entry is appended; after the last channel the list is returned, otherwise the poll waits
from now on for its next channel (44_channel_poller.md R200, R202). -/
def State.probeReturned (s : State) (p : PollCall) (r : Result) : State :=
  if p.bound ≤ p.channel then s.emit (.polled (p.results ++ [probeEntry p.channel r]))
  else { s with polls := s.polls ++
    [{ p with channel := p.channel + 1, results := p.results ++ [probeEntry p.channel r], since := s.now }] }

/-- The caller `c` resumes with result `r` (42_correlator.md R134): a raw host has its answer on the port already, a catalog call
interprets it, a poll records it. -/
def State.resume (s : State) (c : Caller) (r : Result) : State :=
  match c with
  | .host => s
  | .call k => s.emit (.returned k (callResult k r))
  | .poll p => s.probeReturned p r

/-! ### Completion and rejection (60_exceptions.md R233) -/

/-- The pending request ends with result `r`: the state is Idle again BEFORE `DONE` is emitted, once, and the waiting caller resumes
with it. With a failing `r` this is the spec's "trap entry" (60_exceptions.md R233); nothing is saved, there is no return
operation (R234). -/
def State.complete (s : State) (r : Result) : State :=
  (s.endRequest.emit (.done r)).resume s.caller r

/-- A DISPATCH of caller `c` is rejected with `f`: `REJECT` in the same step, and the caller resumes with the failure. -/
def State.refuse (s : State) (c : Caller) (f : Failure) : State :=
  (s.emit (.reject f)).resume c (.fail f)

/-! ### DISPATCH (42_correlator.md R122) -/

/-- Submit one request for caller `c`. The tests in the order of R122: timeout argument, closed port, busy, rejected write. A
rejected write makes the writes of R121's row (timer off, no `P`, Idle; assumption log 19). -/
def State.dispatch (s : State) (c : Caller) (cmd sub : Int) (tmo : Millis) (desc : Desc) (allow wrOk : Bool) : State :=
  if tmo.toNat < 1 then s.refuse c (.invalidArgument (.timeout tmo))
  else if s.portOpen = false then s.refuse c (.portNotOpen .closed)
  else if s.st = .awaitingReply then s.refuse c (.invalidArgument .requestInProgress)
  else if wrOk = false then s.endRequest.refuse c (.portNotOpen .writeRejected)
  else (s.emit (.tx (encodeRequest cmd sub))).startRequest c desc allow tmo

/-! ### Received bytes (42_correlator.md R124) -/

/-- The bytes of one chunk reach the block. In Idle they are logged and discarded (an empty chunk logs nothing); in AwaitingReply they
are appended, and once five bytes are there the first five are the frame, the rest stays, and the request ends. -/
def State.receive (s : State) (chunk : List Byte) : Host.Outcome State Fault Refusal :=
  match s.st with
  | .idle => .next (if chunk = [] then s else s.emit (.log (.stray chunk)))
  | .awaitingReply =>
    let t := s.memAppend chunk
    if t.rxbuf.length < Config.rspLen then .next t
    else
      match s.p with
      | none => .fault .noPendingRequest
      | some r => .next ((t.memDrop Config.rspLen).complete (classify (t.memRead 0 Config.rspLen) r.allow))

/-! ### EXEC and VALIDATE (43_command_catalog.md R150, R151) -/

/-- VALIDATE: the channel first, then the timeout (R150). -/
def validate (c : Call) (tmo : Millis) : Option Failure :=
  match c with
  | .channel _ ch =>
    if channelOk c = false then some (.invalidArgument (.channel ch))
    else if tmo.toNat < 1 then some (.invalidArgument (.timeout tmo)) else none
  | _ => if tmo.toNat < 1 then some (.invalidArgument (.timeout tmo)) else none

/-- EXEC up to its wait (R151): VALIDATE, then one DISPATCH with the descriptor's operands. A failed VALIDATE returns to the caller
and touches neither port nor buffer. -/
def State.issue (s : State) (w : Caller) (c : Call) (tmo : Millis) (wrOk : Bool) : State :=
  match validate c tmo with
  | some f => s.resume w (.fail f)
  | none => s.dispatch w (callCmd c) (callSub c) tmo (Config.descOf c) (callAllow c) wrOk

/-- A catalog operation invoked by a host (R151): the timeout given or the operation's default. -/
def State.invoke (s : State) (c : Call) (tmo : Option Millis) (wrOk : Bool) : State :=
  s.issue (.call c) c (callTmo c tmo) wrOk

/-! ### The poller (44_channel_poller.md R200) -/

/-- Poll `p` probes its channel by one CHEXISTS with its own timeout. -/
def State.probe (s : State) (p : PollCall) (wrOk : Bool) : State :=
  s.issue (.poll p) (.channel .chExists p.channel) p.tmo wrOk

/-- A turn of the `index`-th paused poll: once its wait is over it probes its next channel; until then, or where there is no such
poll, nothing happens (R202, assumption log 12). -/
def State.pollTurn (s : State) (index : Nat) (wrOk : Bool) : State :=
  match s.polls[index]? with
  | none => s
  | some p => if pollReady p s.now then { s with polls := s.polls.eraseIdx index }.probe p wrOk else s

end Sys2Proof.Machine
end

