-- ==== Sys2Proof/Machine/Catalog.lean ====
section
/-! DEFINITION. The 28 catalog operations (43_command_catalog.md R153 to R180): each is EXEC with its row of the descriptor table of
R152 (`State.invoke`). -/

namespace Sys2Proof.Machine

/-- VEND, vend without drop-check (43_command_catalog.md R153). -/
def execVend (ch : Int) (tmo : Option Millis) (wrOk : Bool) (s : State) : Host.Outcome State Fault Refusal :=
  .next (s.invoke (.channel .vend ch) tmo wrOk)

/-- VENDCHK, vend with drop-check (43_command_catalog.md R154). -/
def execVendchk (ch : Int) (tmo : Option Millis) (wrOk : Bool) (s : State) : Host.Outcome State Fault Refusal :=
  .next (s.invoke (.channel .vendChk ch) tmo wrOk)

/-- SELFTEST, self-test (43_command_catalog.md R155). -/
def execSelftest (tmo : Option Millis) (wrOk : Bool) (s : State) : Host.Outcome State Fault Refusal :=
  .next (s.invoke (.plain .selfTest) tmo wrOk)

/-- RESETALL, reset-all: the device resets something of its own, not SSD-FE (43_command_catalog.md R156, 70_reset_and_hazards.md R261). -/
def execResetall (tmo : Option Millis) (wrOk : Bool) (s : State) : Host.Outcome State Fault Refusal :=
  .next (s.invoke (.plain .resetAll) tmo wrOk)

/-- ALLSPRING, all-spring (43_command_catalog.md R157). -/
def execAllspring (tmo : Option Millis) (wrOk : Bool) (s : State) : Host.Outcome State Fault Refusal :=
  .next (s.invoke (.plain .allSpring) tmo wrOk)

/-- ALLBELT, all-belt (43_command_catalog.md R158). -/
def execAllbelt (tmo : Option Millis) (wrOk : Bool) (s : State) : Host.Outcome State Fault Refusal :=
  .next (s.invoke (.plain .allBelt) tmo wrOk)

/-- ALLSINGLE, make-all-single (43_command_catalog.md R159). -/
def execAllsingle (tmo : Option Millis) (wrOk : Bool) (s : State) : Host.Outcome State Fault Refusal :=
  .next (s.invoke (.plain .allSingle) tmo wrOk)

/-- REPEAT, repeat-last-reply: status ERROR is a result, not a failure (43_command_catalog.md R160). -/
def execRepeatLast (tmo : Option Millis) (wrOk : Bool) (s : State) : Host.Outcome State Fault Refusal :=
  .next (s.invoke (.plain .repeatLast) tmo wrOk)

/-- SETBELT, set a channel to belt type (43_command_catalog.md R161). -/
def execSetbelt (ch : Int) (tmo : Option Millis) (wrOk : Bool) (s : State) : Host.Outcome State Fault Refusal :=
  .next (s.invoke (.channel .setBelt ch) tmo wrOk)

/-- SETSPRING, set a channel to spring type (43_command_catalog.md R162). -/
def execSetspring (ch : Int) (tmo : Option Millis) (wrOk : Bool) (s : State) : Host.Outcome State Fault Refusal :=
  .next (s.invoke (.channel .setSpring ch) tmo wrOk)

/-- MKSINGLE, make a channel single (43_command_catalog.md R163). -/
def execMksingle (ch : Int) (tmo : Option Millis) (wrOk : Bool) (s : State) : Host.Outcome State Fault Refusal :=
  .next (s.invoke (.channel .mkSingle ch) tmo wrOk)

/-- MKDOUBLE, make a channel double (43_command_catalog.md R164). -/
def execMkdouble (ch : Int) (tmo : Option Millis) (wrOk : Bool) (s : State) : Host.Outcome State Fault Refusal :=
  .next (s.invoke (.channel .mkDouble ch) tmo wrOk)

/-- CHEXISTS, channel existence: status ERROR means no such channel (43_command_catalog.md R165). -/
def execChexists (ch : Int) (tmo : Option Millis) (wrOk : Bool) (s : State) : Host.Outcome State Fault Refusal :=
  .next (s.invoke (.channel .chExists ch) tmo wrOk)

/-- SETPOINT, set the temperature setpoint (43_command_catalog.md R166). -/
def execSetpoint (v : Int) (tmo : Option Millis) (wrOk : Bool) (s : State) : Host.Outcome State Fault Refusal :=
  .next (s.invoke (.value .setPoint v) tmo wrOk)

/-- HYST, set the hysteresis (43_command_catalog.md R167). -/
def execHyst (v : Int) (tmo : Option Millis) (wrOk : Bool) (s : State) : Host.Outcome State Fault Refusal :=
  .next (s.invoke (.value .hyst v) tmo wrOk)

/-- COMP, set the compensation (43_command_catalog.md R168). -/
def execComp (v : Int) (tmo : Option Millis) (wrOk : Bool) (s : State) : Host.Outcome State Fault Refusal :=
  .next (s.invoke (.value .comp v) tmo wrOk)

/-- DEFROST, set the defrost minutes (43_command_catalog.md R169). -/
def execDefrost (v : Int) (tmo : Option Millis) (wrOk : Bool) (s : State) : Host.Outcome State Fault Refusal :=
  .next (s.invoke (.value .defrost v) tmo wrOk)

/-- COMPRUN, set the compressor run minutes (43_command_catalog.md R170). -/
def execComprun (v : Int) (tmo : Option Millis) (wrOk : Bool) (s : State) : Host.Outcome State Fault Refusal :=
  .next (s.invoke (.value .compRun v) tmo wrOk)

/-- FANDELAY, set the fan idle-off delay (43_command_catalog.md R171). -/
def execFandelay (v : Int) (tmo : Option Millis) (wrOk : Bool) (s : State) : Host.Outcome State Fault Refusal :=
  .next (s.invoke (.value .fanDelay v) tmo wrOk)

/-- GLASSHEAT, switch the glass heater (43_command_catalog.md R172). -/
def execGlassheat (on : Bool) (tmo : Option Millis) (wrOk : Bool) (s : State) : Host.Outcome State Fault Refusal :=
  .next (s.invoke (.toggle .glassHeat on) tmo wrOk)

/-- LIGHT, switch the lighting (43_command_catalog.md R173). -/
def execLight (on : Bool) (tmo : Option Millis) (wrOk : Bool) (s : State) : Host.Outcome State Fault Refusal :=
  .next (s.invoke (.toggle .light on) tmo wrOk)

/-- BUZZER, switch the buzzer (43_command_catalog.md R174). -/
def execBuzzer (on : Bool) (tmo : Option Millis) (wrOk : Bool) (s : State) : Host.Outcome State Fault Refusal :=
  .next (s.invoke (.toggle .buzzer on) tmo wrOk)

/-- TEMPCTL, enable or disable temperature control (43_command_catalog.md R175). -/
def execTempctl (on : Bool) (tmo : Option Millis) (wrOk : Bool) (s : State) : Host.Outcome State Fault Refusal :=
  .next (s.invoke (.toggle .tempCtl on) tmo wrOk)

/-- THERMOMODE, set the thermo mode (43_command_catalog.md R176). -/
def execThermomode (v : Int) (tmo : Option Millis) (wrOk : Bool) (s : State) : Host.Outcome State Fault Refusal :=
  .next (s.invoke (.value .thermoMode v) tmo wrOk)

/-- RDTEMP, temperature read (43_command_catalog.md R177). -/
def execRdtemp (tmo : Option Millis) (wrOk : Bool) (s : State) : Host.Outcome State Fault Refusal :=
  .next (s.invoke (.plain .rdTemp) tmo wrOk)

/-- RDDOOR, door read (43_command_catalog.md R178). -/
def execRddoor (tmo : Option Millis) (wrOk : Bool) (s : State) : Host.Outcome State Fault Refusal :=
  .next (s.invoke (.plain .rdDoor) tmo wrOk)

/-- OPENDOOR, open or unlock the door (43_command_catalog.md R179). -/
def execOpendoor (tmo : Option Millis) (wrOk : Bool) (s : State) : Host.Outcome State Fault Refusal :=
  .next (s.invoke (.plain .openDoor) tmo wrOk)

/-- ACCELEN, enable the accelerometer (43_command_catalog.md R180). -/
def execAccelen (tmo : Option Millis) (wrOk : Bool) (s : State) : Host.Outcome State Fault Refusal :=
  .next (s.invoke (.plain .accelEn) tmo wrOk)

end Sys2Proof.Machine
end

