-- ==== Sys2Proof/Machine/Codec.lean ====
section
/-! DEFINITION. The pure functions as instructions: each returns its value and changes nothing else (D1, 10_state.md R27). -/

namespace Sys2Proof.Machine

/-- MASK8 (40_frame_codec.md R90). -/
def execMask8 (v : Int) (s : State) : Host.Outcome State Fault Refusal := .next (s.answer (.byte (maskByte v)))

/-- COMPL (40_frame_codec.md R91). -/
def execCompl (x : Byte) (s : State) : Host.Outcome State Fault Refusal := .next (s.answer (.byte (complByte x)))

/-- ENCREQ (40_frame_codec.md R92). -/
def execEncreq (cmd sub : Int) (s : State) : Host.Outcome State Fault Refusal :=
  .next (s.answer (.bytes (encodeRequest cmd sub)))

/-- CHKREQ (40_frame_codec.md R93). -/
def execChkreq (bytes : List Byte) (s : State) : Host.Outcome State Fault Refusal :=
  .next (s.answer (.check (checkRequest bytes)))

/-- CSUM (40_frame_codec.md R94). -/
def execCsum (g st d a : Byte) (s : State) : Host.Outcome State Fault Refusal :=
  .next (s.answer (.byte (checksum g st d a)))

/-- ENCRSP (40_frame_codec.md R95). -/
def execEncrsp (g st d a : Byte) (s : State) : Host.Outcome State Fault Refusal :=
  .next (s.answer (.bytes (encodeResponse g st d a)))

/-- DECRSP (40_frame_codec.md R96). -/
def execDecrsp (bytes : List Byte) (s : State) : Host.Outcome State Fault Refusal :=
  .next (s.answer (.result (decodeResponse bytes)))

/-- ERRDEC (41_error_decoder.md R110). -/
def execErrdec (data : Byte) (s : State) : Host.Outcome State Fault Refusal :=
  .next (s.answer (.errorInfo (decodeError data)))

/-- CLASSIFY (42_correlator.md R125). -/
def execClassify (frame : List Byte) (allow : Bool) (s : State) : Host.Outcome State Fault Refusal :=
  .next (s.answer (.result (classify frame allow)))

end Sys2Proof.Machine
end

