-- ==== Sys2Proof/Machine/Correlator.lean ====
section
/-! DEFINITION. The events of the correlator (42_correlator.md R121 to R130, 70_reset_and_hazards.md R260) and the two legal response
frames on the wire. -/

namespace Sys2Proof.Machine

/-- RESET (70_reset_and_hazards.md R260): the values of 10_state.md R30; NOW keeps its value, nothing is emitted, and no caller
survives (a pending call or a poll in progress ends without a result; assumption log 11). -/
def execReset (s : State) : Host.Outcome State Fault Refusal :=
  .next { s.endRequest.memClear with portOpen := false, polls := [] }

/-- OPEN (42_correlator.md R129). -/
def execOpen (s : State) : Host.Outcome State Fault Refusal := .next { s with portOpen := true }

/-- CLOSE (42_correlator.md R130): a pending request is left alone. -/
def execClose (s : State) : Host.Outcome State Fault Refusal := .next { s with portOpen := false }

/-- DISPATCH by a host (42_correlator.md R122). -/
def execDispatch (cmd sub : Int) (tmo : Millis) (desc : Desc) (allow wrOk : Bool) (s : State) :
    Host.Outcome State Fault Refusal :=
  .next (s.dispatch .host cmd sub tmo desc allow wrOk)

/-- RXCHUNK (42_correlator.md R124). -/
def execRxchunk (chunk : List Byte) (s : State) : Host.Outcome State Fault Refusal := s.receive chunk

/-- TMRFIRE (42_correlator.md R127): enabled when a request awaits its reply, the timer is armed and the deadline is due. The buffer is
cleared whatever it held, and the request ends with COMM_TIMEOUT. -/
def execTmrfire (s : State) : Host.Outcome State Fault Refusal :=
  if s.st = .awaitingReply ∧ s.tmrArmed = true then
    match s.p with
    | none => .fault .noPendingRequest
    | some r =>
      if requestDue r s.now then
        .next (s.memClear.complete (.fail (.commTimeout (elapsedSince r.t0 s.now) r.tmo r.desc)))
      else .refused .timerNotEnabled
  else .refused .timerNotEnabled

/-- TICK (42_correlator.md R128): disabled while a deadline is due; otherwise `NOW <- (NOW + 1) mod 2^64`. -/
def execTick (s : State) : Host.Outcome State Fault Refusal :=
  if s.st = .awaitingReply ∧ s.p = none then .fault .noPendingRequest
  else if deadlineDue s then .refused .tickNotEnabled
  else .next { s with now := s.now + 1#64 }

/-- RSP.OK: a whole response frame with status 0x5D reaches the block as one chunk (30_encoding.md R61, R63; assumption log 9). -/
def execRspOk (g d a k : Byte) (s : State) : Host.Outcome State Fault Refusal := s.receive [g, Config.stOk, d, a, k]

/-- RSP.ERROR: a whole response frame with status 0x5C reaches the block as one chunk (R61, R63; assumption log 9). -/
def execRspError (g d a k : Byte) (s : State) : Host.Outcome State Fault Refusal :=
  s.receive [g, Config.stError, d, a, k]

end Sys2Proof.Machine
end

