-- ==== Sys2Proof/Machine/Poller.lean ====
section
/-! DEFINITION. POLL (44_channel_poller.md R200): it clamps its bound and probes channel 1 at once; its later probes are made by its
turns (`State.pollTurn` of Ops.lean), which `step` takes from the event list (assumption log 12). -/

namespace Sys2Proof.Machine

/-- POLL (44_channel_poller.md R200): the locals of the call are created and the first probe is made, with no wait before it (R202). -/
def execPoll (maxChannel : Int) (interChannelDelay perRequestTimeout : Millis) (wrOk : Bool) (s : State) :
    Host.Outcome State Fault Refusal :=
  .next (s.probe ⟨clampChannel maxChannel, interChannelDelay, perRequestTimeout, 1, [], s.now⟩ wrOk)

end Sys2Proof.Machine
end

