-- ==== Sys2Proof/Machine/Dispatch.lean ====
section
/-! DEFINITION. One arm per operation of spec/opcode_table.json. -/

namespace Sys2Proof.Machine

def exec (i : Instr) (s : State) : Host.Outcome State Fault Refusal :=
  match i with
  | .reset => Sys2Proof.Machine.execReset s
  | .portOpen => Sys2Proof.Machine.execOpen s
  | .portClose => Sys2Proof.Machine.execClose s
  | .dispatch cmd sub tmo desc allow wrOk => Sys2Proof.Machine.execDispatch cmd sub tmo desc allow wrOk s
  | .rxchunk chunk => Sys2Proof.Machine.execRxchunk chunk s
  | .tmrfire => Sys2Proof.Machine.execTmrfire s
  | .tick => Sys2Proof.Machine.execTick s
  | .mask8 v => Sys2Proof.Machine.execMask8 v s
  | .compl x => Sys2Proof.Machine.execCompl x s
  | .encreq cmd sub => Sys2Proof.Machine.execEncreq cmd sub s
  | .chkreq bytes => Sys2Proof.Machine.execChkreq bytes s
  | .csum g st d a => Sys2Proof.Machine.execCsum g st d a s
  | .encrsp g st d a => Sys2Proof.Machine.execEncrsp g st d a s
  | .decrsp bytes => Sys2Proof.Machine.execDecrsp bytes s
  | .errdec data => Sys2Proof.Machine.execErrdec data s
  | .classify frame allow => Sys2Proof.Machine.execClassify frame allow s
  | .rspOk g d a k => Sys2Proof.Machine.execRspOk g d a k s
  | .rspError g d a k => Sys2Proof.Machine.execRspError g d a k s
  | .vend ch tmo wrOk => Sys2Proof.Machine.execVend ch tmo wrOk s
  | .vendchk ch tmo wrOk => Sys2Proof.Machine.execVendchk ch tmo wrOk s
  | .selftest tmo wrOk => Sys2Proof.Machine.execSelftest tmo wrOk s
  | .resetall tmo wrOk => Sys2Proof.Machine.execResetall tmo wrOk s
  | .allspring tmo wrOk => Sys2Proof.Machine.execAllspring tmo wrOk s
  | .allbelt tmo wrOk => Sys2Proof.Machine.execAllbelt tmo wrOk s
  | .allsingle tmo wrOk => Sys2Proof.Machine.execAllsingle tmo wrOk s
  | .repeatLast tmo wrOk => Sys2Proof.Machine.execRepeatLast tmo wrOk s
  | .setbelt ch tmo wrOk => Sys2Proof.Machine.execSetbelt ch tmo wrOk s
  | .setspring ch tmo wrOk => Sys2Proof.Machine.execSetspring ch tmo wrOk s
  | .mksingle ch tmo wrOk => Sys2Proof.Machine.execMksingle ch tmo wrOk s
  | .mkdouble ch tmo wrOk => Sys2Proof.Machine.execMkdouble ch tmo wrOk s
  | .chexists ch tmo wrOk => Sys2Proof.Machine.execChexists ch tmo wrOk s
  | .setpoint v tmo wrOk => Sys2Proof.Machine.execSetpoint v tmo wrOk s
  | .hyst v tmo wrOk => Sys2Proof.Machine.execHyst v tmo wrOk s
  | .comp v tmo wrOk => Sys2Proof.Machine.execComp v tmo wrOk s
  | .defrost v tmo wrOk => Sys2Proof.Machine.execDefrost v tmo wrOk s
  | .comprun v tmo wrOk => Sys2Proof.Machine.execComprun v tmo wrOk s
  | .fandelay v tmo wrOk => Sys2Proof.Machine.execFandelay v tmo wrOk s
  | .glassheat on tmo wrOk => Sys2Proof.Machine.execGlassheat on tmo wrOk s
  | .light on tmo wrOk => Sys2Proof.Machine.execLight on tmo wrOk s
  | .buzzer on tmo wrOk => Sys2Proof.Machine.execBuzzer on tmo wrOk s
  | .tempctl on tmo wrOk => Sys2Proof.Machine.execTempctl on tmo wrOk s
  | .thermomode v tmo wrOk => Sys2Proof.Machine.execThermomode v tmo wrOk s
  | .rdtemp tmo wrOk => Sys2Proof.Machine.execRdtemp tmo wrOk s
  | .rddoor tmo wrOk => Sys2Proof.Machine.execRddoor tmo wrOk s
  | .opendoor tmo wrOk => Sys2Proof.Machine.execOpendoor tmo wrOk s
  | .accelen tmo wrOk => Sys2Proof.Machine.execAccelen tmo wrOk s
  | .poll maxChannel interChannelDelay perRequestTimeout wrOk => Sys2Proof.Machine.execPoll maxChannel interChannelDelay perRequestTimeout wrOk s

end Sys2Proof.Machine
end

