-- ==== Sys2Proof/Machine/Step.lean ====
section
/-! DEFINITION. One step: the oldest event of the list is taken and processed to completion (00_scope.md R13). With no event the block
waits (10_state.md R30). -/

namespace Sys2Proof.Machine

/-- One step (00_scope.md R13, assumption log 4). -/
def step (s : State) : Host.Outcome State Fault Refusal :=
  match s.input with
  | [] => .next s
  | .pollTurn index wrOk :: rest => .next ({ s with input := rest }.pollTurn index wrOk)
  | .word w :: rest =>
    match decode w with
    | .error e => .refused (.undecodable e)
    | .ok i => exec i { s with input := rest }

/-- The word of a table row placed as the next event (assumption log 4). -/
def State.withFetchWord (s : State) (nbits w : Nat) : State := { s with input := .word (tableWord nbits w) :: s.input }

end Sys2Proof.Machine
end

