-- ==== Sys2Proof/Safety.lean ====
section
/-! DEFINITION. What a good state is, in the terms claims use: the invariants of 10_state.md R28 and of the sequencers' calls, the exact
next states of an accepted and of a finished request, counts of outputs, and the two transformations of states (a shift of time, a
change of the trace) under which the machine is claimed to behave the same. -/

namespace Sys2Proof.Machine

/-! ### Invariants -/

/-- 10_state.md R28: (I1) the timer is armed exactly when a request awaits its reply; (I2) `P` has a value exactly then, and its
timeout is at least 1. Beside them the model's own: in Idle nobody waits (assumption log 11). -/
abbrev Coherent (s : State) : Prop :=
  (s.tmrArmed = true ↔ s.st = .awaitingReply) ∧ (s.p.isSome = true ↔ s.st = .awaitingReply) ∧
    (∀ r ∈ s.p, 1 ≤ r.tmo.toNat) ∧ (s.st = .idle → s.caller = .host)

/-- The pending request is not older than its timeout: time does not pass a due deadline (42_correlator.md R128, D6). -/
abbrev OnTime (s : State) : Prop := ∀ r ∈ s.p, (elapsedSince r.t0 s.now).toNat ≤ r.tmo.toNat

/-- The locals of a POLL call as R200 makes them: a bound in 1..80, a channel in 1..bound, and an entry for each channel before it, in
ascending order (44_channel_poller.md R200, R201). -/
abbrev PollCall.Consistent (p : PollCall) : Prop :=
  1 ≤ p.channel ∧ p.channel ≤ p.bound ∧ p.bound ≤ 80 ∧
    p.results.map ProbeEntry.channel = List.range' 1 (p.channel - 1)

/-- Every POLL call in progress, paused or at a probe, has consistent locals. -/
abbrev PollsConsistent (s : State) : Prop :=
  (∀ p ∈ s.polls, p.Consistent) ∧ (match s.caller with | .poll p => p.Consistent | _ => True)

/-- The pending request carries the `allow` flag of the operation whose caller waits for it: the descriptor's for a catalog call,
1 for a probe (43_command_catalog.md R151, R152, 44_channel_poller.md R204). -/
abbrev AllowMatches (s : State) : Prop :=
  match s.caller with
  | .host => True
  | .call c => ∀ r ∈ s.p, r.allow = callAllow c
  | .poll _ => ∀ r ∈ s.p, r.allow = true

/-- No entry of a POLL in progress is a controller error (44_channel_poller.md R204: "should not occur here"). -/
abbrev PollsClean (s : State) : Prop :=
  (∀ p ∈ s.polls, ∀ e ∈ p.results, e.outcome ≠ .controllerError) ∧
    (match s.caller with | .poll p => ∀ e ∈ p.results, e.outcome ≠ .controllerError | _ => True)

/-- `o` is no CONTROLLER_ERROR of a probe or of an operation that lets status ERROR through (60_exceptions.md R228, R245). -/
abbrev allowedOutput (o : Output) : Prop :=
  match o with
  | .polled es => ∀ e ∈ es, e.outcome ≠ .controllerError
  | .returned c (.fail (.controllerError _ _ _ _ _)) =>
    (∀ ch, c ≠ .channel .chExists ch) ∧ c ≠ .plain .repeatLast
  | _ => True

/-- The failure an output carries on its port is one R245 gives that port: on DONE the numbers 2, 4, 5 and 7, on REJECT 1 and 6
(60_exceptions.md R220, R245). -/
abbrev portCodeOk (o : Output) : Prop :=
  match o with
  | .done (.fail f) => failureNumber f ∈ [2#3, 4#3, 5#3, 7#3]
  | .reject f => failureNumber f ∈ [1#3, 6#3]
  | _ => True

/-- A POLL's list covers the channels from 1 to its length, in ascending order (44_channel_poller.md R200). -/
abbrev ChannelsInOrder (entries : List ProbeEntry) : Prop :=
  entries.map ProbeEntry.channel = List.range' 1 entries.length

/-- The operations that can end a pending request: received bytes and the timer (42_correlator.md R121). -/
abbrev endsRequests (i : Instr) : Prop :=
  match i with
  | .rxchunk _ | .rspOk _ _ _ _ | .rspError _ _ _ _ | .tmrfire => True
  | _ => False

/-! ### Next states in full -/

/-- A request frame (30_encoding.md R60). -/
abbrev requestFrame (cmd sub : Byte) : List Byte := [0x00#8, 0xFF#8, cmd, 0xFF#8 - cmd, sub, 0xFF#8 - sub]

/-- `s` after the transport took the request frame of caller `c` (42_correlator.md R121, row 5 of DISPATCH): everything not named is as
before. -/
abbrev accepted (s : State) (c : Caller) (desc : Desc) (allow : Bool) (tmo : Millis) (frame : List Byte) : State :=
  { s with st := .awaitingReply, p := some ⟨desc, allow, tmo, s.now⟩, tmrArmed := true, caller := c,
           trace := s.trace ++ [.tx frame] }

/-- `s` after its request has ended, with buffer `rx` and the outputs `outs` (42_correlator.md R121): everything not named is as
before. -/
abbrev finished (s : State) (rx : List Byte) (outs : List Output) : State :=
  { s with st := .idle, p := none, tmrArmed := false, caller := .host, rxbuf := rx, trace := s.trace ++ outs }

/-- The catalog instruction of a call (43_command_catalog.md R152). -/
def callInstr (c : Call) (tmo : Option Millis) (wrOk : Bool) : Instr :=
  match c with
  | .channel .vend ch => .vend ch tmo wrOk
  | .channel .vendChk ch => .vendchk ch tmo wrOk
  | .channel .setBelt ch => .setbelt ch tmo wrOk
  | .channel .setSpring ch => .setspring ch tmo wrOk
  | .channel .mkSingle ch => .mksingle ch tmo wrOk
  | .channel .mkDouble ch => .mkdouble ch tmo wrOk
  | .channel .chExists ch => .chexists ch tmo wrOk
  | .plain .selfTest => .selftest tmo wrOk
  | .plain .resetAll => .resetall tmo wrOk
  | .plain .allSpring => .allspring tmo wrOk
  | .plain .allBelt => .allbelt tmo wrOk
  | .plain .allSingle => .allsingle tmo wrOk
  | .plain .repeatLast => .repeatLast tmo wrOk
  | .plain .rdTemp => .rdtemp tmo wrOk
  | .plain .rdDoor => .rddoor tmo wrOk
  | .plain .openDoor => .opendoor tmo wrOk
  | .plain .accelEn => .accelen tmo wrOk
  | .value .setPoint v => .setpoint v tmo wrOk
  | .value .hyst v => .hyst v tmo wrOk
  | .value .comp v => .comp v tmo wrOk
  | .value .defrost v => .defrost v tmo wrOk
  | .value .compRun v => .comprun v tmo wrOk
  | .value .fanDelay v => .fandelay v tmo wrOk
  | .value .thermoMode v => .thermomode v tmo wrOk
  | .toggle .glassHeat on => .glassheat on tmo wrOk
  | .toggle .light on => .light on tmo wrOk
  | .toggle .buzzer on => .buzzer on tmo wrOk
  | .toggle .tempCtl on => .tempctl on tmo wrOk

/-- A timeout operand that is absent or at least 1 (43_command_catalog.md R150). -/
abbrev tmoOk (tmo : Option Millis) : Prop := ∀ t ∈ tmo, 1 ≤ t.toNat

/-- The timeout of an operation: the one given, else its default (43_command_catalog.md R151). -/
abbrev tmoOf (op : CatalogOp) (tmo : Option Millis) : Millis :=
  match tmo with
  | some t => t
  | none => defaultTmo op

/-! ### The trace -/

/-- The number of requests sent. -/
def txCount (trace : List Output) : Nat := trace.countP (fun o => match o with | .tx _ => true | _ => false)

/-- The number of completions. -/
def doneCount (trace : List Output) : Nat := trace.countP (fun o => match o with | .done _ => true | _ => false)

/-- 1 while a request is pending, else 0. -/
def inFlight (s : State) : Nat := match s.st with | .awaitingReply => 1 | .idle => 0

/-- The outcome with its next state, if it has one, replaced. -/
def mapNext (f : State → State) (o : Host.Outcome State Fault Refusal) : Host.Outcome State Fault Refusal :=
  match o with
  | .next t => .next (f t)
  | .fault r => .fault r
  | .refused r => .refused r

/-- `s` with `before` in front of its trace. -/
def State.traceAfter (before : List Output) (s : State) : State := { s with trace := before ++ s.trace }

/-! ### Shifting time -/

/-- A POLL call whose wait began `d` later. -/
def PollCall.shift (d : Time) (p : PollCall) : PollCall := { p with since := p.since + d }

/-- A caller whose poll's wait began `d` later. -/
def Caller.shift (d : Time) (c : Caller) : Caller :=
  match c with
  | .host => .host
  | .call k => .call k
  | .poll p => .poll (p.shift d)

/-- `s` with every absolute time in it moved by `d`: NOW, the creation timestamp and the starts of the polls' waits. -/
def State.shiftTime (d : Time) (s : State) : State :=
  { s with now := s.now + d, p := s.p.map (fun r => { r with t0 := r.t0 + d }), caller := s.caller.shift d,
           polls := s.polls.map (PollCall.shift d) }

/-! ### Events by their words -/

/-- The word of TICK (30_encoding.md R72). -/
def tickWord : InputEvent := .word (encode .tick)

end Sys2Proof.Machine
end

