-- ==== Sys2Proof/Laws/State.lean ====
section
/-! SUPPORT. The fields after each update of the state, one lemma per field per update, so that no proof unfolds a record update. -/

namespace Sys2Proof.Machine

section
variable (s : State) (o : Output) (v : FunctionValue) (bs : List Byte) (n : Nat)

@[simp] theorem State.emit_st : (s.emit o).st = s.st := rfl
@[simp] theorem State.emit_portOpen : (s.emit o).portOpen = s.portOpen := rfl
@[simp] theorem State.emit_rxbuf : (s.emit o).rxbuf = s.rxbuf := rfl
@[simp] theorem State.emit_p : (s.emit o).p = s.p := rfl
@[simp] theorem State.emit_tmrArmed : (s.emit o).tmrArmed = s.tmrArmed := rfl
@[simp] theorem State.emit_now : (s.emit o).now = s.now := rfl
@[simp] theorem State.emit_caller : (s.emit o).caller = s.caller := rfl
@[simp] theorem State.emit_polls : (s.emit o).polls = s.polls := rfl
@[simp] theorem State.emit_input : (s.emit o).input = s.input := rfl
@[simp] theorem State.emit_trace : (s.emit o).trace = s.trace ++ [o] := rfl

@[simp] theorem State.memAppend_st : (s.memAppend bs).st = s.st := rfl
@[simp] theorem State.memAppend_portOpen : (s.memAppend bs).portOpen = s.portOpen := rfl
@[simp] theorem State.memAppend_rxbuf : (s.memAppend bs).rxbuf = s.rxbuf ++ bs := rfl
@[simp] theorem State.memAppend_p : (s.memAppend bs).p = s.p := rfl
@[simp] theorem State.memAppend_tmrArmed : (s.memAppend bs).tmrArmed = s.tmrArmed := rfl
@[simp] theorem State.memAppend_now : (s.memAppend bs).now = s.now := rfl
@[simp] theorem State.memAppend_caller : (s.memAppend bs).caller = s.caller := rfl
@[simp] theorem State.memAppend_polls : (s.memAppend bs).polls = s.polls := rfl
@[simp] theorem State.memAppend_input : (s.memAppend bs).input = s.input := rfl
@[simp] theorem State.memAppend_trace : (s.memAppend bs).trace = s.trace := rfl

@[simp] theorem State.memDrop_st : (s.memDrop n).st = s.st := rfl
@[simp] theorem State.memDrop_portOpen : (s.memDrop n).portOpen = s.portOpen := rfl
@[simp] theorem State.memDrop_rxbuf : (s.memDrop n).rxbuf = s.rxbuf.drop n := rfl
@[simp] theorem State.memDrop_p : (s.memDrop n).p = s.p := rfl
@[simp] theorem State.memDrop_tmrArmed : (s.memDrop n).tmrArmed = s.tmrArmed := rfl
@[simp] theorem State.memDrop_now : (s.memDrop n).now = s.now := rfl
@[simp] theorem State.memDrop_caller : (s.memDrop n).caller = s.caller := rfl
@[simp] theorem State.memDrop_polls : (s.memDrop n).polls = s.polls := rfl
@[simp] theorem State.memDrop_input : (s.memDrop n).input = s.input := rfl
@[simp] theorem State.memDrop_trace : (s.memDrop n).trace = s.trace := rfl

@[simp] theorem State.memClear_st : s.memClear.st = s.st := rfl
@[simp] theorem State.memClear_portOpen : s.memClear.portOpen = s.portOpen := rfl
@[simp] theorem State.memClear_rxbuf : s.memClear.rxbuf = [] := rfl
@[simp] theorem State.memClear_p : s.memClear.p = s.p := rfl
@[simp] theorem State.memClear_tmrArmed : s.memClear.tmrArmed = s.tmrArmed := rfl
@[simp] theorem State.memClear_now : s.memClear.now = s.now := rfl
@[simp] theorem State.memClear_caller : s.memClear.caller = s.caller := rfl
@[simp] theorem State.memClear_polls : s.memClear.polls = s.polls := rfl
@[simp] theorem State.memClear_input : s.memClear.input = s.input := rfl
@[simp] theorem State.memClear_trace : s.memClear.trace = s.trace := rfl

@[simp] theorem State.endRequest_st : s.endRequest.st = .idle := rfl
@[simp] theorem State.endRequest_portOpen : s.endRequest.portOpen = s.portOpen := rfl
@[simp] theorem State.endRequest_rxbuf : s.endRequest.rxbuf = s.rxbuf := rfl
@[simp] theorem State.endRequest_p : s.endRequest.p = none := rfl
@[simp] theorem State.endRequest_tmrArmed : s.endRequest.tmrArmed = false := rfl
@[simp] theorem State.endRequest_now : s.endRequest.now = s.now := rfl
@[simp] theorem State.endRequest_caller : s.endRequest.caller = .host := rfl
@[simp] theorem State.endRequest_polls : s.endRequest.polls = s.polls := rfl
@[simp] theorem State.endRequest_input : s.endRequest.input = s.input := rfl
@[simp] theorem State.endRequest_trace : s.endRequest.trace = s.trace := rfl

variable (c : Caller) (desc : Desc) (allow : Bool) (tmo : Millis)

@[simp] theorem State.startRequest_st : (s.startRequest c desc allow tmo).st = .awaitingReply := rfl
@[simp] theorem State.startRequest_portOpen : (s.startRequest c desc allow tmo).portOpen = s.portOpen := rfl
@[simp] theorem State.startRequest_rxbuf : (s.startRequest c desc allow tmo).rxbuf = s.rxbuf := rfl
@[simp] theorem State.startRequest_p :
    (s.startRequest c desc allow tmo).p = some ⟨desc, allow, tmo, s.now⟩ := rfl
@[simp] theorem State.startRequest_tmrArmed : (s.startRequest c desc allow tmo).tmrArmed = true := rfl
@[simp] theorem State.startRequest_now : (s.startRequest c desc allow tmo).now = s.now := rfl
@[simp] theorem State.startRequest_caller : (s.startRequest c desc allow tmo).caller = c := rfl
@[simp] theorem State.startRequest_polls : (s.startRequest c desc allow tmo).polls = s.polls := rfl
@[simp] theorem State.startRequest_input : (s.startRequest c desc allow tmo).input = s.input := rfl
@[simp] theorem State.startRequest_trace : (s.startRequest c desc allow tmo).trace = s.trace := rfl

end

/-- A function's value goes to the trace and nowhere else. -/
theorem State.answer_eq (s : State) (v : FunctionValue) :
    s.answer v = { s with trace := s.trace ++ [.value v] } := rfl

/-- The accepted row of DISPATCH in full. -/
theorem State.startRequest_emit (s : State) (c : Caller) (desc : Desc) (allow : Bool) (tmo : Millis) (f : List Byte) :
    (s.emit (.tx f)).startRequest c desc allow tmo = accepted s c desc allow tmo f := rfl

end Sys2Proof.Machine
end

