-- ==== Sys2Proof/Laws/Codec.lean ====
section
/-! SUPPORT. The arithmetic of the codec in numbers, and the byte forms of operands read back. -/

namespace Sys2Proof.Machine

/-- MASK8 of an integer, as a number (40_frame_codec.md R90). -/
theorem maskByte_toNat (v : Int) : ((maskByte v).toNat : Int) = v % 256 := by
  simp only [maskByte, BitVec.toNat_ofInt]
  omega

/-- MASK8 of a byte is the byte (40_frame_codec.md R90). -/
@[simp] theorem maskByte_byte (b : Byte) : maskByte (b.toNat : Int) = b := by
  apply BitVec.eq_of_toNat_eq
  have h := maskByte_toNat (b.toNat : Int)
  have := b.isLt
  omega

/-- COMPL as a number (40_frame_codec.md R91). -/
theorem complByte_toNat (x : Byte) : (complByte x).toNat = 255 - x.toNat := by
  have := x.isLt
  simp only [complByte, BitVec.toNat_sub, BitVec.toNat_ofNat]
  omega

/-- COMPL is the bitwise complement (40_frame_codec.md R91). -/
theorem complByte_eq_xor (x : Byte) : complByte x = x ^^^ 0xFF#8 := by
  revert x; decide

/-- CSUM as a number (40_frame_codec.md R94). -/
theorem checksum_toNat (g st d a : Byte) :
    (checksum g st d a).toNat = (g.toNat + st.toNat + d.toNat + a.toNat) % 256 := by
  simp [checksum]

/-- CSUM is a sum of bytes with carries dropped (40_frame_codec.md R94). -/
theorem checksum_eq_add (g st d a : Byte) : checksum g st d a = g + st + d + a := by
  apply BitVec.eq_of_toNat_eq
  simp [checksum, BitVec.toNat_add]

/-- Two halves put together, as a number. -/
theorem append_toNat {m n : Nat} (x : BitVec m) (y : BitVec n) : (x ++ y).toNat = x.toNat * 2 ^ n + y.toNat := by
  rw [BitVec.toNat_append, ← Nat.shiftLeft_add_eq_or_of_lt y.isLt, Nat.shiftLeft_eq]

/-- Four bytes of a word read back. -/
theorem wordOfBytes_extract (w : BitVec 32) :
    wordOfBytes (w.extractLsb' 24 8) (w.extractLsb' 16 8) (w.extractLsb' 8 8) (w.extractLsb' 0 8) = w := by
  apply BitVec.eq_of_toNat_eq
  have := w.isLt
  simp only [wordOfBytes, append_toNat, BitVec.extractLsb'_toNat, Nat.shiftRight_eq_div_pow]
  omega

/-- A signed operand that fits its width is read back (00_scope.md R7, D24). -/
theorem readInt_bytes (v : Int) (h : fitsVal v = true) :
    readInt ((BitVec.ofInt 32 v).extractLsb' 24 8) ((BitVec.ofInt 32 v).extractLsb' 16 8)
      ((BitVec.ofInt 32 v).extractLsb' 8 8) ((BitVec.ofInt 32 v).extractLsb' 0 8) = v := by
  simp only [readInt, wordOfBytes_extract]
  simp only [fitsVal, Bool.and_eq_true, decide_eq_true_eq] at h
  rw [BitVec.toInt_ofInt]
  apply Int.bmod_eq_of_le <;> omega

/-- A one-bit operand is read back. -/
@[simp] theorem readBool_byteOfBool (b : Bool) : readBool (byteOfBool b) = .ok b := by cases b <;> rfl

end Sys2Proof.Machine
end

