-- ==== Sys2Proof/Laws/Ops.lean ====
section
/-! SUPPORT. One lemma per shared operation that says once everything it can do; proofs cite these and do not unfold the
operations. -/

namespace Sys2Proof.Machine

/-- A deadline is due when the elapsed time has reached the timeout. -/
theorem requestDue_iff (r : Pending) (now : Time) :
    requestDue r now = true ↔ r.tmo.toNat ≤ (now - r.t0).toNat := decide_eq_true_iff

/-- A deadline is not due before. -/
theorem requestDue_eq_false_iff (r : Pending) (now : Time) :
    requestDue r now = false ↔ (now - r.t0).toNat < r.tmo.toNat := by
  rw [← Bool.not_eq_true, requestDue_iff, Nat.not_le]

/-- The condition that disables TICK, for a pending request. -/
theorem deadlineDue_iff (s : State) (r : Pending) (hp : s.p = some r) :
    deadlineDue s = true ↔ s.st = .awaitingReply ∧ r.tmo.toNat ≤ (s.now - r.t0).toNat := by
  simp only [deadlineDue, hp, Bool.and_eq_true, decide_eq_true_eq, requestDue_iff]

/-- A poll's wait is over when the elapsed time has reached its delay. -/
theorem pollReady_iff (p : PollCall) (now : Time) :
    pollReady p now = true ↔ p.delay.toNat ≤ (now - p.since).toNat := decide_eq_true_iff

/-- A resumed caller changes only the list of paused polls and the trace, and the trace only grows. -/
theorem State.resume_frame (s : State) (c : Caller) (r : Result) :
    ∃ polls outs, s.resume c r = { s with polls := polls, trace := s.trace ++ outs } := by
  cases c with
  | host => exact ⟨s.polls, [], by simp [State.resume]⟩
  | call k => exact ⟨s.polls, [.returned k (callResult k r)], rfl⟩
  | poll p =>
    by_cases h : p.bound ≤ p.channel
    · exact ⟨s.polls, [.polled (p.results ++ [probeEntry p.channel r])], by
        simp only [State.resume, State.probeReturned, if_pos h]; rfl⟩
    · exact ⟨s.polls ++
        [{ p with channel := p.channel + 1, results := p.results ++ [probeEntry p.channel r], since := s.now }], [], by
        simp only [State.resume, State.probeReturned, if_neg h, List.append_nil]⟩

/-- What a resumed caller does: a host nothing more, a call returns its reading of the result, a poll makes an entry and then returns its
list or waits for its next channel. -/
theorem State.resume_cases (s : State) (c : Caller) (r : Result) :
    (c = .host ∧ s.resume c r = s) ∨
    (∃ k, c = .call k ∧ s.resume c r = { s with trace := s.trace ++ [.returned k (callResult k r)] }) ∨
    (∃ p, c = .poll p ∧ p.bound ≤ p.channel ∧
      s.resume c r = { s with trace := s.trace ++ [.polled (p.results ++ [probeEntry p.channel r])] }) ∨
    (∃ p, c = .poll p ∧ p.channel < p.bound ∧
      s.resume c r = { s with polls := s.polls ++
        [⟨p.bound, p.delay, p.tmo, p.channel + 1, p.results ++ [probeEntry p.channel r], s.now⟩] }) := by
  cases c with
  | host => exact .inl ⟨rfl, rfl⟩
  | call k => exact .inr (.inl ⟨k, rfl, rfl⟩)
  | poll p =>
    by_cases h : p.bound ≤ p.channel
    · exact .inr (.inr (.inl ⟨p, rfl, h, if_pos h⟩))
    · exact .inr (.inr (.inr ⟨p, rfl, Nat.lt_of_not_le h, if_neg h⟩))

/-- The end of a request: Idle, no record, timer off, `DONE` emitted, then the caller resumes. -/
theorem State.complete_eq (s : State) (r : Result) :
    s.complete r = (finished s s.rxbuf [.done r]).resume s.caller r := rfl

/-- A rejection emits `REJECT`, then the caller resumes with the failure; nothing else changes. -/
theorem State.refuse_eq (s : State) (c : Caller) (f : Failure) :
    s.refuse c f = ({ s with trace := s.trace ++ [.reject f] } : State).resume c (.fail f) := rfl

/-- DISPATCH rejects with one of the four failures of R122, in that order, or is accepted. -/
theorem State.dispatch_cases (s : State) (c : Caller) (cmd sub : Int) (tmo : Millis) (desc : Desc) (allow wrOk : Bool) :
    (tmo.toNat < 1 ∧ s.dispatch c cmd sub tmo desc allow wrOk = s.refuse c (.invalidArgument (.timeout tmo))) ∨
    (1 ≤ tmo.toNat ∧ s.portOpen = false ∧
      s.dispatch c cmd sub tmo desc allow wrOk = s.refuse c (.portNotOpen .closed)) ∨
    (1 ≤ tmo.toNat ∧ s.portOpen = true ∧ s.st = .awaitingReply ∧
      s.dispatch c cmd sub tmo desc allow wrOk = s.refuse c (.invalidArgument .requestInProgress)) ∨
    (1 ≤ tmo.toNat ∧ s.portOpen = true ∧ s.st = .idle ∧ wrOk = false ∧
      s.dispatch c cmd sub tmo desc allow wrOk = s.endRequest.refuse c (.portNotOpen .writeRejected)) ∨
    (1 ≤ tmo.toNat ∧ s.portOpen = true ∧ s.st = .idle ∧ wrOk = true ∧
      s.dispatch c cmd sub tmo desc allow wrOk = accepted s c desc allow tmo (encodeRequest cmd sub)) := by
  unfold State.dispatch
  by_cases h1 : tmo.toNat < 1
  · simp [h1]
  · have h1' : 1 ≤ tmo.toNat := by omega
    cases hp : s.portOpen <;> cases hs : s.st <;> cases wrOk <;> simp [h1, h1', State.startRequest_emit]

/-- What the delivery of a chunk can do: discard it in Idle, keep it while the frame is short, complete the request, or read a
record that is not there. -/
theorem State.receive_cases (s : State) (chunk : List Byte) :
    (s.st = .idle ∧ chunk = [] ∧ s.receive chunk = .next s) ∨
    (s.st = .idle ∧ chunk ≠ [] ∧ s.receive chunk = .next (s.emit (.log (.stray chunk)))) ∨
    (s.st = .awaitingReply ∧ (s.rxbuf ++ chunk).length < 5 ∧ s.receive chunk = .next (s.memAppend chunk)) ∨
    (s.st = .awaitingReply ∧ 5 ≤ (s.rxbuf ++ chunk).length ∧ s.p = none ∧
      s.receive chunk = .fault .noPendingRequest) ∨
    (∃ r, s.st = .awaitingReply ∧ 5 ≤ (s.rxbuf ++ chunk).length ∧ s.p = some r ∧
      s.receive chunk = .next ((finished s ((s.rxbuf ++ chunk).drop 5)
        [.done (classify ((s.rxbuf ++ chunk).take 5) r.allow)]).resume s.caller
          (classify ((s.rxbuf ++ chunk).take 5) r.allow))) := by
  unfold State.receive
  cases hs : s.st with
  | idle => by_cases h : chunk = [] <;> simp [h]
  | awaitingReply =>
    by_cases h : (s.rxbuf ++ chunk).length < 5
    · have h' : (s.memAppend chunk).rxbuf.length < Config.rspLen := h
      exact .inr (.inr (.inl ⟨rfl, h, if_pos h'⟩))
    · have h' : ¬ (s.memAppend chunk).rxbuf.length < Config.rspLen := h
      have h5 : 5 ≤ (s.rxbuf ++ chunk).length := Nat.le_of_not_lt h
      cases hp : s.p with
      | none => exact .inr (.inr (.inr (.inl ⟨rfl, h5, rfl, if_neg h'⟩)))
      | some r => exact .inr (.inr (.inr (.inr ⟨r, rfl, h5, rfl, if_neg h'⟩)))

/-- A channel is in range exactly when it is in 1..80. -/
theorem channelOk_iff (op : ChannelOp) (ch : Int) : channelOk (.channel op ch) = true ↔ 1 ≤ ch ∧ ch ≤ 80 := by
  rw [channelOk, Bool.and_eq_true, decide_eq_true_iff, decide_eq_true_iff]; rfl

/-- VALIDATE passes exactly when the channel, if there is one, and the timeout are in range. -/
theorem validate_eq_none_iff (c : Call) (tmo : Millis) :
    validate c tmo = none ↔ channelOk c = true ∧ 1 ≤ tmo.toNat := by
  unfold validate
  cases c with
  | channel op ch =>
    cases h : channelOk (.channel op ch) <;> by_cases h1 : tmo.toNat < 1 <;> simp [h1]; omega
  | _ => by_cases h1 : tmo.toNat < 1 <;> simp [h1, channelOk]; omega

/-- EXEC up to its wait: the caller resumes with VALIDATE's failure, or one DISPATCH is made. -/
theorem State.issue_cases (s : State) (w : Caller) (c : Call) (tmo : Millis) (wrOk : Bool) :
    (∃ f, validate c tmo = some f ∧ s.issue w c tmo wrOk = s.resume w (.fail f)) ∨
    (validate c tmo = none ∧ s.issue w c tmo wrOk =
      s.dispatch w (callCmd c) (callSub c) tmo (Config.descOf c) (callAllow c) wrOk) := by
  unfold State.issue
  cases h : validate c tmo with
  | none => exact .inr ⟨rfl, rfl⟩
  | some f => exact .inl ⟨f, rfl, rfl⟩

/-- A catalog call by a host: VALIDATE's failure is returned, or one DISPATCH is made. -/
theorem State.invoke_cases (s : State) (c : Call) (tmo : Option Millis) (wrOk : Bool) :
    (∃ f, validate c (callTmo c tmo) = some f ∧
      s.invoke c tmo wrOk = { s with trace := s.trace ++ [.returned c (.fail f)] }) ∨
    (validate c (callTmo c tmo) = none ∧ s.invoke c tmo wrOk =
      s.dispatch (.call c) (callCmd c) (callSub c) (callTmo c tmo) (Config.descOf c) (callAllow c) wrOk) :=
  State.issue_cases s (.call c) c (callTmo c tmo) wrOk

/-- A poll's probe: VALIDATE's failure makes an entry, or one DISPATCH is made. -/
theorem State.probe_cases (s : State) (p : PollCall) (wrOk : Bool) :
    (∃ f, validate (.channel .chExists p.channel) p.tmo = some f ∧
      s.probe p wrOk = s.resume (.poll p) (.fail f)) ∨
    (validate (.channel .chExists p.channel) p.tmo = none ∧ s.probe p wrOk =
      s.dispatch (.poll p) (callCmd (.channel .chExists p.channel)) (callSub (.channel .chExists p.channel)) p.tmo
        (Config.descOf (.channel .chExists p.channel)) true wrOk) :=
  State.issue_cases s (.poll p) (.channel .chExists p.channel) p.tmo wrOk

/-- A poll's turn: no such poll or not its time, so nothing; or the poll leaves the list and probes. -/
theorem State.pollTurn_cases (s : State) (index : Nat) (wrOk : Bool) :
    s.pollTurn index wrOk = s ∨
    ∃ p, s.polls[index]? = some p ∧ pollReady p s.now = true ∧
      s.pollTurn index wrOk = State.probe { s with polls := s.polls.eraseIdx index } p wrOk := by
  unfold State.pollTurn
  cases h : s.polls[index]? with
  | none => exact .inl rfl
  | some p =>
    cases hr : pollReady p s.now with
    | false => exact .inl (by simp [hr])
    | true => exact .inr ⟨p, rfl, hr, by simp [hr]⟩

/-- What TMRFIRE can do. -/
theorem execTmrfire_cases (s : State) :
    execTmrfire s = .refused .timerNotEnabled ∨
    (s.st = .awaitingReply ∧ s.p = none ∧ execTmrfire s = .fault .noPendingRequest) ∨
    ∃ r, s.st = .awaitingReply ∧ s.tmrArmed = true ∧ s.p = some r ∧ requestDue r s.now = true ∧
      execTmrfire s = .next ((finished s []
        [.done (.fail (.commTimeout (elapsedSince r.t0 s.now) r.tmo r.desc))]).resume s.caller
          (.fail (.commTimeout (elapsedSince r.t0 s.now) r.tmo r.desc))) := by
  unfold execTmrfire
  by_cases h : s.st = .awaitingReply ∧ s.tmrArmed = true
  · rw [if_pos h]
    cases hp : s.p with
    | none => exact .inr (.inl ⟨h.1, rfl, rfl⟩)
    | some r =>
      cases hd : requestDue r s.now with
      | false => exact .inl (by simp [hd])
      | true => exact .inr (.inr ⟨r, h.1, h.2, rfl, hd, by simp [hd]; rfl⟩)
  · exact .inl (if_neg h)

/-- What TICK can do. -/
theorem execTick_cases (s : State) :
    (s.st = .awaitingReply ∧ s.p = none ∧ execTick s = .fault .noPendingRequest) ∨
    (deadlineDue s = true ∧ execTick s = .refused .tickNotEnabled) ∨
    (deadlineDue s = false ∧ execTick s = .next { s with now := s.now + 1#64 }) := by
  unfold execTick
  by_cases h : s.st = .awaitingReply ∧ s.p = none
  · exact .inl ⟨h.1, h.2, if_pos h⟩
  · rw [if_neg h]
    cases hd : deadlineDue s <;> simp

/-- A catalog instruction is EXEC with its call. -/
theorem exec_callInstr (c : Call) (tmo : Option Millis) (wrOk : Bool) (s : State) :
    exec (callInstr c tmo wrOk) s = .next (s.invoke c tmo wrOk) := by
  cases c with
  | channel op ch => cases op <;> rfl
  | plain op => cases op <;> rfl
  | value op v => cases op <;> rfl
  | toggle op on => cases op <;> rfl

/-- A poll's bound is a channel, and it is 1 exactly where no more than channel 1 is asked for. -/
theorem clampChannel_cases (m : Int) :
    1 ≤ clampChannel m ∧ clampChannel m ≤ 80 ∧ (clampChannel m = 1 ↔ m ≤ 1) := by
  simp only [clampChannel, Config.chMin, Config.chMax]
  omega

/-- What an instruction can do: a function answers; RESET; the port bit; TMRFIRE; TICK; a chunk is received; a host's DISPATCH; a
catalog call; a POLL's first probe. -/
theorem exec_cases (i : Instr) (s : State) :
    (∃ v, exec i s = .next (s.answer v)) ∨
    (i = .reset ∧ exec i s = execReset s) ∨
    (∃ b, exec i s = .next { s with portOpen := b }) ∨
    (i = .tmrfire ∧ exec i s = execTmrfire s) ∨
    (i = .tick ∧ exec i s = execTick s) ∨
    (∃ chunk, endsRequests i ∧ exec i s = s.receive chunk) ∨
    (∃ cmd sub tmo desc allow wrOk, i = .dispatch cmd sub tmo desc allow wrOk ∧
      exec i s = .next (s.dispatch .host cmd sub tmo desc allow wrOk)) ∨
    (∃ c tmo wrOk, exec i s = .next (s.issue (.call c) c tmo wrOk)) ∨
    (∃ m delay tmo wrOk, i = .poll m delay tmo wrOk ∧
      exec i s = .next (s.probe ⟨clampChannel m, delay, tmo, 1, [], s.now⟩ wrOk)) := by
  cases i
  case reset => exact .inr (.inl ⟨rfl, rfl⟩)
  case portOpen => exact .inr (.inr (.inl ⟨_, rfl⟩))
  case portClose => exact .inr (.inr (.inl ⟨_, rfl⟩))
  case tmrfire => exact .inr (.inr (.inr (.inl ⟨rfl, rfl⟩)))
  case tick => exact .inr (.inr (.inr (.inr (.inl ⟨rfl, rfl⟩))))
  case rxchunk => exact .inr (.inr (.inr (.inr (.inr (.inl ⟨_, trivial, rfl⟩)))))
  case rspOk => exact .inr (.inr (.inr (.inr (.inr (.inl ⟨_, trivial, rfl⟩)))))
  case rspError => exact .inr (.inr (.inr (.inr (.inr (.inl ⟨_, trivial, rfl⟩)))))
  case dispatch => exact .inr (.inr (.inr (.inr (.inr (.inr (.inl ⟨_, _, _, _, _, _, rfl, rfl⟩))))))
  case poll => exact .inr (.inr (.inr (.inr (.inr (.inr (.inr (.inr ⟨_, _, _, _, rfl, rfl⟩)))))))
  all_goals first
    | exact .inl ⟨_, rfl⟩
    | exact .inr (.inr (.inr (.inr (.inr (.inr (.inr (.inl ⟨_, _, _, rfl⟩)))))))

/-- What a step can do. -/
theorem step_cases (s : State) :
    (s.input = [] ∧ step s = .next s) ∨
    (∃ index wrOk rest, s.input = .pollTurn index wrOk :: rest ∧
      step s = .next (State.pollTurn { s with input := rest } index wrOk)) ∨
    (∃ w e rest, s.input = .word w :: rest ∧ decode w = .error e ∧ step s = .refused (.undecodable e)) ∨
    (∃ w i rest, s.input = .word w :: rest ∧ decode w = .ok i ∧ step s = exec i { s with input := rest }) := by
  unfold step
  cases s.input with
  | nil => exact .inl ⟨rfl, rfl⟩
  | cons e rest =>
    cases e with
    | pollTurn index wrOk => exact .inr (.inl ⟨index, wrOk, rest, rfl, rfl⟩)
    | word w =>
      cases hd : decode w with
      | error e => exact .inr (.inr (.inl ⟨w, e, rest, rfl, hd, by simp [hd]⟩))
      | ok i => exact .inr (.inr (.inr ⟨w, i, rest, rfl, hd, by simp [hd]⟩))

end Sys2Proof.Machine
end

