-- ==== Sys2Proof/Laws/PerInstr.lean ====
section
/-! SUPPORT. Per operation: its word begins with its number of 30_encoding.md R72, and the two rows without a number are response
frames. -/

namespace Sys2Proof.Laws.OperationNumber

/-- The word of `i` is of format `op` and begins with its operation number; without a number it is a response frame. -/
def Statement (i : Instr) : Prop :=
  match operationNumber i with
  | some n => (encode i).format = .op ∧ (encode i).bytes.head? = some n
  | none => (encode i).format = .rsp

theorem reset : Statement (.reset) := ⟨rfl, rfl⟩
theorem portOpen : Statement (.portOpen) := ⟨rfl, rfl⟩
theorem portClose : Statement (.portClose) := ⟨rfl, rfl⟩
theorem dispatch (cmd sub : Int) (tmo : Millis) (desc : Desc) (allow wrOk : Bool) : Statement (.dispatch cmd sub tmo desc allow wrOk) := ⟨rfl, rfl⟩
theorem rxchunk (chunk : List Byte) : Statement (.rxchunk chunk) := ⟨rfl, rfl⟩
theorem tmrfire : Statement (.tmrfire) := ⟨rfl, rfl⟩
theorem tick : Statement (.tick) := ⟨rfl, rfl⟩
theorem mask8 (v : Int) : Statement (.mask8 v) := ⟨rfl, rfl⟩
theorem compl (x : Byte) : Statement (.compl x) := ⟨rfl, rfl⟩
theorem encreq (cmd sub : Int) : Statement (.encreq cmd sub) := ⟨rfl, rfl⟩
theorem chkreq (bytes : List Byte) : Statement (.chkreq bytes) := ⟨rfl, rfl⟩
theorem csum (g st d a : Byte) : Statement (.csum g st d a) := ⟨rfl, rfl⟩
theorem encrsp (g st d a : Byte) : Statement (.encrsp g st d a) := ⟨rfl, rfl⟩
theorem decrsp (bytes : List Byte) : Statement (.decrsp bytes) := ⟨rfl, rfl⟩
theorem errdec (data : Byte) : Statement (.errdec data) := ⟨rfl, rfl⟩
theorem classify (frame : List Byte) (allow : Bool) : Statement (.classify frame allow) := ⟨rfl, rfl⟩
theorem rspOk (g d a k : Byte) : Statement (.rspOk g d a k) := rfl
theorem rspError (g d a k : Byte) : Statement (.rspError g d a k) := rfl
theorem vend (ch : Int) (tmo : Option Millis) (wrOk : Bool) : Statement (.vend ch tmo wrOk) := ⟨rfl, rfl⟩
theorem vendchk (ch : Int) (tmo : Option Millis) (wrOk : Bool) : Statement (.vendchk ch tmo wrOk) := ⟨rfl, rfl⟩
theorem selftest (tmo : Option Millis) (wrOk : Bool) : Statement (.selftest tmo wrOk) := ⟨rfl, rfl⟩
theorem resetall (tmo : Option Millis) (wrOk : Bool) : Statement (.resetall tmo wrOk) := ⟨rfl, rfl⟩
theorem allspring (tmo : Option Millis) (wrOk : Bool) : Statement (.allspring tmo wrOk) := ⟨rfl, rfl⟩
theorem allbelt (tmo : Option Millis) (wrOk : Bool) : Statement (.allbelt tmo wrOk) := ⟨rfl, rfl⟩
theorem allsingle (tmo : Option Millis) (wrOk : Bool) : Statement (.allsingle tmo wrOk) := ⟨rfl, rfl⟩
theorem repeatLast (tmo : Option Millis) (wrOk : Bool) : Statement (.repeatLast tmo wrOk) := ⟨rfl, rfl⟩
theorem setbelt (ch : Int) (tmo : Option Millis) (wrOk : Bool) : Statement (.setbelt ch tmo wrOk) := ⟨rfl, rfl⟩
theorem setspring (ch : Int) (tmo : Option Millis) (wrOk : Bool) : Statement (.setspring ch tmo wrOk) := ⟨rfl, rfl⟩
theorem mksingle (ch : Int) (tmo : Option Millis) (wrOk : Bool) : Statement (.mksingle ch tmo wrOk) := ⟨rfl, rfl⟩
theorem mkdouble (ch : Int) (tmo : Option Millis) (wrOk : Bool) : Statement (.mkdouble ch tmo wrOk) := ⟨rfl, rfl⟩
theorem chexists (ch : Int) (tmo : Option Millis) (wrOk : Bool) : Statement (.chexists ch tmo wrOk) := ⟨rfl, rfl⟩
theorem setpoint (v : Int) (tmo : Option Millis) (wrOk : Bool) : Statement (.setpoint v tmo wrOk) := ⟨rfl, rfl⟩
theorem hyst (v : Int) (tmo : Option Millis) (wrOk : Bool) : Statement (.hyst v tmo wrOk) := ⟨rfl, rfl⟩
theorem comp (v : Int) (tmo : Option Millis) (wrOk : Bool) : Statement (.comp v tmo wrOk) := ⟨rfl, rfl⟩
theorem defrost (v : Int) (tmo : Option Millis) (wrOk : Bool) : Statement (.defrost v tmo wrOk) := ⟨rfl, rfl⟩
theorem comprun (v : Int) (tmo : Option Millis) (wrOk : Bool) : Statement (.comprun v tmo wrOk) := ⟨rfl, rfl⟩
theorem fandelay (v : Int) (tmo : Option Millis) (wrOk : Bool) : Statement (.fandelay v tmo wrOk) := ⟨rfl, rfl⟩
theorem glassheat (on : Bool) (tmo : Option Millis) (wrOk : Bool) : Statement (.glassheat on tmo wrOk) := ⟨rfl, rfl⟩
theorem light (on : Bool) (tmo : Option Millis) (wrOk : Bool) : Statement (.light on tmo wrOk) := ⟨rfl, rfl⟩
theorem buzzer (on : Bool) (tmo : Option Millis) (wrOk : Bool) : Statement (.buzzer on tmo wrOk) := ⟨rfl, rfl⟩
theorem tempctl (on : Bool) (tmo : Option Millis) (wrOk : Bool) : Statement (.tempctl on tmo wrOk) := ⟨rfl, rfl⟩
theorem thermomode (v : Int) (tmo : Option Millis) (wrOk : Bool) : Statement (.thermomode v tmo wrOk) := ⟨rfl, rfl⟩
theorem rdtemp (tmo : Option Millis) (wrOk : Bool) : Statement (.rdtemp tmo wrOk) := ⟨rfl, rfl⟩
theorem rddoor (tmo : Option Millis) (wrOk : Bool) : Statement (.rddoor tmo wrOk) := ⟨rfl, rfl⟩
theorem opendoor (tmo : Option Millis) (wrOk : Bool) : Statement (.opendoor tmo wrOk) := ⟨rfl, rfl⟩
theorem accelen (tmo : Option Millis) (wrOk : Bool) : Statement (.accelen tmo wrOk) := ⟨rfl, rfl⟩
theorem poll (maxChannel : Int) (interChannelDelay perRequestTimeout : Millis) (wrOk : Bool) : Statement (.poll maxChannel interChannelDelay perRequestTimeout wrOk) := ⟨rfl, rfl⟩

end Sys2Proof.Laws.OperationNumber
end

