-- ==== Sys2Proof/Certificates/Slice0/Obligations.lean ====
section
/-! DEFINITION. The statements for the provers. -/

open Sys2Proof Sys2Proof.Machine

/-! ### Words and steps -/

/-- Every well-formed operation is read back from its word. The wire formats and the operation numbers are the spec's (30_encoding.md
R60, R61, R72); how operands follow a number is the model's choice (assumption log 1). -/
def Obligations.DecodeReadsBackEveryEncodedOperation : Prop :=
  ∀ i : Instr, wellFormed i = true → decode (encode i) = .ok i

/-- A word of format `op` has one meaning: the word of the operation it decodes to is that word. The layout of operands is the
model's choice (assumption log 1). -/
def Obligations.EncodeReadsBackEveryDecodedWord : Prop :=
  ∀ (w : PortWord) (i : Instr), w.format = .op → decode w = .ok i → encode i = w

/-- The decoder yields only operations whose operands the ports can carry (00_scope.md R7). -/
def Obligations.DecodedOperationsAreWellFormed : Prop :=
  ∀ (w : PortWord) (i : Instr), decode w = .ok i → wellFormed i = true

/-- A few words written out from the spec: RESET, TICK, MASK8 and POLL by their numbers (30_encoding.md R72), channel 1's request frame
(R66), the frames of the two legal statuses (R61, R63), a frame with another status, a frame with a broken complement byte, an error
data byte (R62). The bytes after a number are the model's choice (assumption log 1), and so is it that a request frame is read as the
ENCREQ that writes it or refused, and a response frame with another status as an operand of DECRSP (assumption log 3). -/
def Obligations.WordsOfTheSpecDecode : Prop :=
  decode ⟨.op, [0x00#8], none⟩ = .ok .reset ∧
  decode ⟨.op, [0x06#8], none⟩ = .ok .tick ∧
  decode ⟨.op, [0x10#8, 0x00#8, 0x00#8, 0x01#8, 0x79#8], none⟩ = .ok (.mask8 0x179) ∧
  decode ⟨.op, [0x40#8, 0x00#8, 0x00#8, 0x00#8, 0x50#8, 0x00#8, 0x00#8, 0x00#8, 0x0A#8, 0x00#8, 0x00#8, 0x00#8, 0xC8#8,
    0x01#8], none⟩ = .ok (.poll 80 10#32 200#32 true) ∧
  decode ⟨.req, [0x00#8, 0xFF#8, 0x79#8, 0x86#8, 0x01#8, 0xFE#8], none⟩ = .ok (.encreq 0x79 0x01) ∧
  decode ⟨.req, [0x00#8, 0xFF#8, 0x79#8, 0x87#8, 0x01#8, 0xFE#8], none⟩ = .error .badRequestFrame ∧
  decode ⟨.rsp, [0x00#8, 0x5D#8, 0x19#8, 0x00#8, 0x76#8], none⟩ = .ok (.rspOk 0x00#8 0x19#8 0x00#8 0x76#8) ∧
  decode ⟨.rsp, [0x00#8, 0x5C#8, 0x53#8, 0x00#8, 0xAF#8], none⟩ = .ok (.rspError 0x00#8 0x53#8 0x00#8 0xAF#8) ∧
  decode ⟨.rsp, [0x00#8, 0x5E#8, 0x00#8, 0x00#8, 0x5E#8], none⟩ = .ok (.decrsp [0x00#8, 0x5E#8, 0x00#8, 0x00#8, 0x5E#8]) ∧
  decode ⟨.errd, [0x53#8], none⟩ = .ok (.errdec 0x53#8)

/-- When the next event is a word that decodes to `i`, a step takes the word from the list and is `exec` of `i`. That events stand in
a list is the model's choice (assumption log 4); one event per step is 00_scope.md R13. -/
def Obligations.StepRunsTheDecodedOperation : Prop :=
  ∀ (s : State) (w : PortWord) (i : Instr) (rest : List InputEvent),
    s.input = .word w :: rest → decode w = .ok i → step s = exec i { s with input := rest }

/-- The other steps: with no event the block waits (10_state.md R30), a word that is no encoding is refused by name, a turn of a poll
runs the poller. The event list and the turns are the model's choice (assumption logs 4 and 12). -/
def Obligations.StepWithoutAnOperation : Prop :=
  (∀ s : State, s.input = [] → step s = .next s) ∧
  (∀ (s : State) (w : PortWord) (e : DecodeError) (rest : List InputEvent),
    s.input = .word w :: rest → decode w = .error e → step s = .refused (.undecodable e)) ∧
  (∀ (s : State) (index : Nat) (wrOk : Bool) (rest : List InputEvent),
    s.input = .pollTurn index wrOk :: rest →
      step s = .next (State.pollTurn { s with input := rest } index wrOk))

/-! ### The codec and the error decoder -/

/-- MASK8 returns `v mod 256` for every integer and changes nothing else (40_frame_codec.md R90). That a value is
returned as an output is the model's choice (assumption log 5). -/
def Obligations.Mask8ReturnsTheLowByte : Prop :=
  ∀ (v : Int) (s : State), ∃ b : Byte,
    exec (.mask8 v) s = .next { s with trace := s.trace ++ [.value (.byte b)] } ∧ (b.toNat : Int) = v % 256

/-- COMPL returns `0xFF - x`, which is `x XOR 0xFF` and never `x`, and changes nothing else (40_frame_codec.md R91). That a value is
returned as an output is the model's choice (assumption log 5). -/
def Obligations.ComplReturnsTheComplement : Prop :=
  ∀ (x : Byte) (s : State), ∃ b : Byte,
    exec (.compl x) s = .next { s with trace := s.trace ++ [.value (.byte b)] } ∧
      b.toNat = 255 - x.toNat ∧ b = x ^^^ 0xFF#8 ∧ b ≠ x

/-- ENCREQ returns the six bytes of 40_frame_codec.md R92, its operands masked to bytes, and changes nothing else. That a value is
returned as an output is the model's choice (assumption log 5). -/
def Obligations.EncreqBuildsTheRequestFrame : Prop :=
  ∀ (cmd sub : Int) (s : State), ∃ c x : Byte, (c.toNat : Int) = cmd % 256 ∧ (x.toNat : Int) = sub % 256 ∧
    exec (.encreq cmd sub) s = .next { s with trace := s.trace ++
      [.value (.bytes [0x00#8, 0xFF#8, c, 0xFF#8 - c, x, 0xFF#8 - x])] }

/-- CHKREQ: a length other than six is invalid; otherwise the pairs whose odd byte is not the complement of its even byte are named, or,
if there is none, the three fields are returned. Nothing else changes (40_frame_codec.md R93). That a value is
returned as an output is the model's choice (assumption log 5). -/
def Obligations.ChkreqNamesTheBadPairs : Prop :=
  (∀ (bytes : List Byte) (s : State), bytes.length ≠ 6 →
    exec (.chkreq bytes) s = .next { s with trace := s.trace ++ [.value (.check .invalidLength)] }) ∧
  (∀ (b0 b1 b2 b3 b4 b5 : Byte) (s : State),
    let bytes := [b0, b1, b2, b3, b4, b5]
    let bad := [0, 2, 4].filter (fun i => bytes.getD (i + 1) 0x00#8 != 0xFF#8 - bytes.getD i 0x00#8)
    exec (.chkreq bytes) s = .next { s with trace := s.trace ++
      [.value (.check (if bad = [] then .valid b0 b2 b4 else .invalidPairs bad))] })

/-- The three properties of 40_frame_codec.md R98: DECRSP accepts a five-byte sequence exactly when its last byte is the checksum of the
others, and returns what ENCRSP was given; CHKREQ accepts every frame ENCREQ writes and returns group id 0 and the masked operands;
ENCREQ is injective on bytes. The rule is derived there from R92, R93, R95 and R96. -/
def Obligations.CodecRoundTripProperties : Prop :=
  (∀ g st d a k : Byte, (∃ f, decodeResponse [g, st, d, a, k] = .ok f) ↔
    k.toNat = (g.toNat + st.toNat + d.toNat + a.toNat) % 256) ∧
  (∀ g st d a : Byte, decodeResponse (encodeResponse g st d a) = .ok ⟨g, st, d, a, encodeResponse g st d a⟩) ∧
  (∀ cmd sub : Int, ∃ c x : Byte, (c.toNat : Int) = cmd % 256 ∧ (x.toNat : Int) = sub % 256 ∧
    checkRequest (encodeRequest cmd sub) = .valid 0x00#8 c x) ∧
  (∀ c x c' x' : Byte, encodeRequest c.toNat x.toNat = encodeRequest c'.toNat x'.toNat → c = c' ∧ x = x')

/-- One inverted bit anywhere in a valid request frame makes exactly the pair it stands in fail; the same bit inverted in both bytes of
a pair goes unnoticed (40_frame_codec.md R93, derived there). -/
def Obligations.OneBitErrorsOfARequestAreDetected : Prop :=
  ∀ (g c x : Byte) (k : Nat), k < 8 →
    let frame := [g, 0xFF#8 - g, c, 0xFF#8 - c, x, 0xFF#8 - x]
    let flip := fun b : Byte => b ^^^ BitVec.twoPow 8 k
    (∀ j, j < 6 → checkRequest (frame.modify j flip) = .invalidPairs [2 * (j / 2)]) ∧
    (∀ j, j < 3 → ∃ g' c' x', checkRequest ((frame.modify (2 * j) flip).modify (2 * j + 1) flip) = .valid g' c' x')

/-- CSUM returns the sum of its four bytes modulo 256, which is also what the accumulator form gives; ENCRSP returns its operands followed
by that byte; neither changes anything else (40_frame_codec.md R94, R95). That a value is
returned as an output is the model's choice (assumption log 5). -/
def Obligations.CsumAndEncrspReturnTheSumModulo256 : Prop :=
  ∀ (g st d a : Byte) (s : State), ∃ k : Byte, k.toNat = (g.toNat + st.toNat + d.toNat + a.toNat) % 256 ∧
    k = checksumAcc [g, st, d, a] ∧
    exec (.csum g st d a) s = .next { s with trace := s.trace ++ [.value (.byte k)] } ∧
    exec (.encrsp g st d a) s = .next { s with trace := s.trace ++ [.value (.bytes [g, st, d, a, k])] }

/-- DECRSP: a length other than five is PROTOCOL_BAD_LENGTH; then a checksum that disagrees is PROTOCOL_BAD_CHECKSUM with both values;
otherwise the four fields and the bytes are returned. Nothing else changes (40_frame_codec.md R96). That a value is
returned as an output is the model's choice (assumption log 5). -/
def Obligations.DecrspTestsLengthThenChecksum : Prop :=
  (∀ (bytes : List Byte) (s : State), bytes.length ≠ 5 →
    exec (.decrsp bytes) s =
      .next { s with trace := s.trace ++ [.value (.result (.fail (.badLength bytes.length bytes)))] }) ∧
  (∀ (g st d a k : Byte) (s : State),
    let total := BitVec.ofNat 8 (g.toNat + st.toNat + d.toNat + a.toNat)
    exec (.decrsp [g, st, d, a, k]) s = .next { s with trace := s.trace ++ [.value (.result
      (if total = k then .ok ⟨g, st, d, a, [g, st, d, a, k]⟩
       else .fail (.badChecksum total k [g, st, d, a, k])))] })

/-- Any change of exactly one byte of a frame DECRSP accepts makes it fail with PROTOCOL_BAD_CHECKSUM (40_frame_codec.md R94, derived
there). -/
def Obligations.SingleByteErrorsOfAResponseAreDetected : Prop :=
  ∀ (bytes : List Byte) (f : Frame) (j : Nat) (b : Byte), decodeResponse bytes = .ok f → j < 5 →
    bytes.getD j 0x00#8 ≠ b →
      ∃ e r, decodeResponse (bytes.set j b) = .fail (.badChecksum e r (bytes.set j b))

/-- ERRDEC splits the byte into its two nibbles and labels each from its table, an undefined code by "unknown"; nothing else changes
(41_error_decoder.md R110 to R112). That a value is
returned as an output is the model's choice (assumption log 5). -/
def Obligations.ErrdecSplitsTheErrorByte : Prop :=
  ∀ (data : Byte) (s : State), ∃ e : ErrorInfo,
    exec (.errdec data) s = .next { s with trace := s.trace ++ [.value (.errorInfo e)] } ∧
    e.mechanicalCode.toNat = data.toNat / 16 ∧ e.opticalCode.toNat = data.toNat % 16 ∧
    e.mechanicalText = [MechText.ok, .pMosfetShort, .nMosfetShort, .motorShort, .motorOpen,
      .motorRotationTimeout].getD (data.toNat / 16) .unknown ∧
    e.opticalText = [OptText.ok, .falseTrigger, .noSignalOnToggle, .ambiguousConstantSignalDuringVend].getD
      (data.toNat % 16) .unknown

/-- CLASSIFY reports the first of PROTOCOL_BAD_LENGTH, PROTOCOL_BAD_CHECKSUM, PROTOCOL_UNEXPECTED_STATUS and (without `allow`)
CONTROLLER_ERROR that applies, and the frame otherwise; nothing else changes (42_correlator.md R125). That a value is
returned as an output is the model's choice (assumption log 5). -/
def Obligations.ClassifyReportsTheFirstFailure : Prop :=
  (∀ (bytes : List Byte) (allow : Bool) (s : State), bytes.length ≠ 5 →
    exec (.classify bytes allow) s =
      .next { s with trace := s.trace ++ [.value (.result (.fail (.badLength bytes.length bytes)))] }) ∧
  (∀ (g st d a k : Byte) (allow : Bool) (s : State),
    let total := BitVec.ofNat 8 (g.toNat + st.toNat + d.toNat + a.toNat)
    let raw := [g, st, d, a, k]
    exec (.classify raw allow) s = .next { s with trace := s.trace ++ [.value (.result
      (if total ≠ k then .fail (.badChecksum total k raw)
       else if st ≠ 0x5D#8 ∧ st ≠ 0x5C#8 then .fail (.unexpectedStatus st d a raw)
       else if st = 0x5C#8 ∧ allow = false then .fail (.controllerError st d a (decodeError d) raw)
       else .ok ⟨g, st, d, a, raw⟩))] })

/-- The numbers of the closed taxonomy, 0 for an `Ok` result (60_exceptions.md R220). -/
def Obligations.FailureCodesAreNumbered : Prop :=
  (∀ f, resultNumber (.ok f) = 0#3) ∧ (∀ r, resultNumber (.fail (.portNotOpen r)) = 1#3) ∧
  (∀ e t d, resultNumber (.fail (.commTimeout e t d)) = 2#3) ∧
  (∀ n raw, resultNumber (.fail (.badLength n raw)) = 3#3) ∧
  (∀ e k raw, resultNumber (.fail (.badChecksum e k raw)) = 4#3) ∧
  (∀ st d a raw, resultNumber (.fail (.unexpectedStatus st d a raw)) = 5#3) ∧
  (∀ r, resultNumber (.fail (.invalidArgument r)) = 6#3) ∧
  (∀ st d a e raw, resultNumber (.fail (.controllerError st d a e raw)) = 7#3)

/-! ### The correlator -/

/-- DISPATCH by a host: rejected for a timeout below 1, for a closed port, for a request in progress, for a rejected write, in this order,
every state element staying as it was; or accepted with one TX of the masked operands' frame, `P` set from the operands and NOW, and the
timer armed (42_correlator.md R122). The premise is the invariant of 10_state.md R28, stated below. -/
def Obligations.DispatchRejectsInOrderOrSends : Prop :=
  ∀ (cmd sub : Int) (tmo : Millis) (desc : Desc) (allow wrOk : Bool) (s : State), Coherent s → ∃ c x : Byte,
    (c.toNat : Int) = cmd % 256 ∧ (x.toNat : Int) = sub % 256 ∧
    exec (.dispatch cmd sub tmo desc allow wrOk) s = .next
      (if tmo.toNat < 1 then { s with trace := s.trace ++ [.reject (.invalidArgument (.timeout tmo))] }
       else if s.portOpen = false then { s with trace := s.trace ++ [.reject (.portNotOpen .closed)] }
       else if s.st = .awaitingReply then
         { s with trace := s.trace ++ [.reject (.invalidArgument .requestInProgress)] }
       else if wrOk = false then { s with trace := s.trace ++ [.reject (.portNotOpen .writeRejected)] }
       else { s with st := .awaitingReply, p := some ⟨desc, allow, tmo, s.now⟩, tmrArmed := true,
                     trace := s.trace ++ [.tx [0x00#8, 0xFF#8, c, 0xFF#8 - c, x, 0xFF#8 - x]] })

/-- RXCHUNK: in Idle the chunk is logged (an empty one is not) and discarded; in AwaitingReply it is appended, and when five bytes are
there the first five are classified with `P.allow`, the rest stays in the buffer, the state is Idle, the timer off, and DONE carries the
result; for a host that is all (42_correlator.md R124). What a waiting call or poll adds after DONE is stated with them. -/
def Obligations.RxchunkDiscardsBuffersOrCompletes : Prop :=
  ∀ (chunk : List Byte) (s : State),
    (s.st = .idle → exec (.rxchunk chunk) s = .next
      (if chunk = [] then s else { s with trace := s.trace ++ [.log (.stray chunk)] })) ∧
    (s.st = .awaitingReply → (s.rxbuf ++ chunk).length < 5 →
      exec (.rxchunk chunk) s = .next { s with rxbuf := s.rxbuf ++ chunk }) ∧
    (∀ r, s.st = .awaitingReply → 5 ≤ (s.rxbuf ++ chunk).length → s.p = some r →
      let result := classify ((s.rxbuf ++ chunk).take 5) r.allow
      let after := finished s ((s.rxbuf ++ chunk).drop 5) [.done result]
      (∃ polls more, exec (.rxchunk chunk) s =
        .next { after with polls := polls, trace := s.trace ++ .done result :: more }) ∧
      (s.caller = .host → exec (.rxchunk chunk) s = .next after))

/-- The two rows of legal response frames: a frame that reaches the block whole is one chunk (the model's reading of these rows,
assumption log 9), so a pending request of a host with an empty buffer ends in `Ok` for status OK, and for status ERROR in
CONTROLLER_ERROR without `allow` and in `Ok` with it (42_correlator.md R125, 30_encoding.md R63). -/
def Obligations.ResponseFramesCompleteTheRequest : Prop :=
  (∀ (g d a k : Byte) (s : State),
    exec (.rspOk g d a k) s = exec (.rxchunk [g, 0x5D#8, d, a, k]) s ∧
    exec (.rspError g d a k) s = exec (.rxchunk [g, 0x5C#8, d, a, k]) s) ∧
  (∀ (g d a : Byte) (s : State) (r : Pending), s.st = .awaitingReply → s.p = some r → s.rxbuf = [] → s.caller = .host →
    let k := BitVec.ofNat 8 (g.toNat + 0x5D + d.toNat + a.toNat)
    let e := BitVec.ofNat 8 (g.toNat + 0x5C + d.toNat + a.toNat)
    exec (.rspOk g d a k) s =
      .next (finished s [] [.done (.ok ⟨g, 0x5D#8, d, a, [g, 0x5D#8, d, a, k]⟩)]) ∧
    exec (.rspError g d a e) s = .next (finished s [] [.done
      (if r.allow then .ok ⟨g, 0x5C#8, d, a, [g, 0x5C#8, d, a, e]⟩
       else .fail (.controllerError 0x5C#8 d a (decodeError d) [g, 0x5C#8, d, a, e]))]))

/-- Before the fifth byte it does not matter where the stream is cut: two chunks, the first of which leaves the frame short, do what one
chunk of both does (42_correlator.md R124 case e, derived there). -/
def Obligations.ChunkBoundariesBeforeTheFifthByteDoNotMatter : Prop :=
  ∀ (s : State) (c1 c2 : List Byte), s.st = .awaitingReply → (s.rxbuf ++ c1).length < 5 →
    ∃ t, exec (.rxchunk c1) s = .next t ∧ exec (.rxchunk c2) t = exec (.rxchunk (c1 ++ c2)) s

/-- After the fifth byte it does: a frame and further bytes in one chunk leave those bytes in the buffer, the same bytes in a second
chunk are logged as stray and leave it empty (70_reset_and_hazards.md R276). -/
def Obligations.ChunkBoundariesAfterTheFifthByteMatter : Prop :=
  ∀ (s : State) (r : Pending) (frame extra : List Byte), s.st = .awaitingReply → s.p = some r → s.rxbuf = [] →
    frame.length = 5 → extra ≠ [] →
      ∃ t u, exec (.rxchunk (frame ++ extra)) s = .next t ∧ t.st = .idle ∧ t.rxbuf = extra ∧
        exec (.rxchunk frame) s = .next u ∧
        exec (.rxchunk extra) u = .next { t with rxbuf := [], trace := t.trace ++ [.log (.stray extra)] }

/-- A remainder of 1 to 4 bytes misaligns the next reply: a reply in one chunk of five bytes leaves a remainder of the same length, while
with one-byte chunks the frame that completes always leaves an empty buffer (70_reset_and_hazards.md R273, 20_memory.md R44). -/
def Obligations.RemaindersPersistOrHealByChunking : Prop :=
  (∀ (s : State) (r : Pending) (reply : List Byte), s.st = .awaitingReply → s.p = some r →
    1 ≤ s.rxbuf.length → s.rxbuf.length ≤ 4 → reply.length = 5 →
      ∃ t, exec (.rxchunk reply) s = .next t ∧ t.st = .idle ∧
        t.rxbuf = reply.drop (5 - s.rxbuf.length) ∧ t.rxbuf.length = s.rxbuf.length ∧
        ∃ more, t.trace = s.trace ++ .done
          (classify (s.rxbuf ++ reply.take (5 - s.rxbuf.length)) r.allow) :: more) ∧
  (∀ (s t : State) (b : Byte), s.st = .awaitingReply → s.rxbuf.length ≤ 4 →
    exec (.rxchunk [b]) s = .next t → t.st = .idle → t.rxbuf = [])

/-- TMRFIRE, enabled when a request awaits its reply, the timer is armed and `elapsed >= P.tmo`: the buffer is emptied, the state is Idle,
the timer off, and DONE carries COMM_TIMEOUT with the elapsed time, the timeout and the description; for a host that is all
(42_correlator.md R127). What a waiting call or poll adds after DONE is stated with them. -/
def Obligations.TmrfireEndsTheRequestWithCommTimeout : Prop :=
  ∀ (s : State) (r : Pending), s.st = .awaitingReply → s.tmrArmed = true → s.p = some r →
    r.tmo.toNat ≤ (s.now - r.t0).toNat →
      let failure := Failure.commTimeout (s.now - r.t0) r.tmo r.desc
      let after := finished s [] [.done (.fail failure)]
      (∃ polls more, exec .tmrfire s =
        .next { after with polls := polls, trace := s.trace ++ .done (.fail failure) :: more }) ∧
      (s.caller = .host → exec .tmrfire s = .next after)

/-- TICK where it is enabled: in Idle, or before the pending request's deadline is due, NOW advances by one modulo 2^64 and nothing else
changes (42_correlator.md R128). The condition is the spec's decision D6 (assumption log 27); what TICK does where it is not enabled is
the next statement. -/
def Obligations.TickAdvancesTimeByOne : Prop :=
  ∀ s : State, (s.st = .idle ∨ ∃ r, s.p = some r ∧ (s.now - r.t0).toNat < r.tmo.toNat) →
    exec .tick s = .next { s with now := BitVec.ofNat 64 ((s.now.toNat + 1) % 2 ^ 64) }

/-- The two events that have an enabling condition, where it does not hold: the spec says that the event "cannot occur" (42_correlator.md
R127) or is disabled (R128); that the model refuses it by name is its own choice (assumption log 7). -/
def Obligations.TimeEventsAreRefusedWhenNotEnabled : Prop :=
  (∀ s : State, (s.st = .idle ∨ s.tmrArmed = false ∨ ∃ r, s.p = some r ∧ (s.now - r.t0).toNat < r.tmo.toNat) →
    exec .tmrfire s = .refused .timerNotEnabled) ∧
  (∀ (s : State) (r : Pending), s.st = .awaitingReply → s.p = some r → r.tmo.toNat ≤ (s.now - r.t0).toNat →
    exec .tick s = .refused .tickNotEnabled)

/-- OPEN and CLOSE write PORT_OPEN and nothing else, so both are idempotent and CLOSE leaves a pending request alone (42_correlator.md
R129, R130). -/
def Obligations.OpenAndCloseWriteOnlyThePortBit : Prop :=
  ∀ s : State, exec .portOpen s = .next { s with portOpen := true } ∧
    exec .portClose s = .next { s with portOpen := false }

/-- RESET in any state: Idle, port closed, buffer empty, no request, timer off; NOW keeps its value and nothing is emitted
(70_reset_and_hazards.md R260). That the calls in progress end is the model's reading of "no caller survives it" (assumption log 11). -/
def Obligations.ResetRestoresTheInitialState : Prop :=
  ∀ s : State, exec .reset s = .next { s with st := .idle, portOpen := false, rxbuf := [], p := none, tmrArmed := false,
                                              caller := .host, polls := [] }

/-- The values 10_state.md R30 gives for the state after reset (NOW is unspecified there and not stated here). -/
def Obligations.ResetStateHasTheValuesOfTheSpec : Prop :=
  State.reset.st = .idle ∧ State.reset.portOpen = false ∧ State.reset.rxbuf = [] ∧ State.reset.p = none ∧
    State.reset.tmrArmed = false

/-! ### Invariants of every step -/

/-- The reset state satisfies the four invariants that the next statements say every step keeps (10_state.md R28, R30). -/
def Obligations.ResetStateSatisfiesTheInvariants : Prop :=
  Coherent State.reset ∧ OnTime State.reset ∧ PollsConsistent State.reset ∧ AllowMatches State.reset ∧ PollsClean State.reset

/-- Every step keeps the invariants I1 and I2 of 10_state.md R28 (and that nobody waits in Idle, the model's own field of assumption
log 11). -/
def Obligations.EveryStepKeepsTheStateCoherent : Prop :=
  ∀ s t : State, Coherent s → step s = .next t → Coherent t

/-- Invariant I3 of 10_state.md R28: after an RXCHUNK that leaves the request pending at most four bytes are buffered, and a step after
which five or more are buffered in AwaitingReply did not touch the buffer. -/
def Obligations.AFullFrameIsBufferedOnlyByARemainder : Prop :=
  (∀ (s t : State) (chunk : List Byte), exec (.rxchunk chunk) s = .next t → t.st = .awaitingReply → t.rxbuf.length ≤ 4) ∧
  (∀ s t : State, step s = .next t → t.st = .awaitingReply → 5 ≤ t.rxbuf.length → t.rxbuf = s.rxbuf)

/-- In a coherent state no step faults: `P` is read only where it has a value (10_state.md R24, R30). -/
def Obligations.CoherentStatesNeverFault : Prop :=
  ∀ (s : State) (f : Fault), Coherent s → step s ≠ .fault f

/-- No step makes a pending request older than its timeout, so the timer, when it fires, fires exactly at it (42_correlator.md R127
case b, R128; the spec's decision D6). -/
def Obligations.TheTimerFiresExactlyOnTime : Prop :=
  (∀ s t : State, Coherent s → OnTime s → step s = .next t → OnTime t) ∧
  (∀ s t : State, OnTime s → exec .tmrfire s = .next t →
    ∃ r, s.p = some r ∧ (s.now - r.t0).toNat = r.tmo.toNat)

/-- One completion per accepted request: in a step other than a RESET, requests sent and completions differ by the change of requests in
flight, and at most one request is sent (42_correlator.md R126, R133 property P7). -/
def Obligations.EveryAcceptedRequestCompletesOnce : Prop :=
  ∀ s t : State, step s = .next t → (∀ w rest, s.input = .word w :: rest → decode w ≠ .ok .reset) →
    txCount t.trace + doneCount s.trace + inFlight s = txCount s.trace + doneCount t.trace + inFlight t ∧
    txCount t.trace ≤ txCount s.trace + 1

/-- Progress: as many ticks as are left of the timeout bring a pending request's deadline due; then TICK is disabled and TMRFIRE ends the
request with COMM_TIMEOUT at exactly its timeout, in Idle with an empty buffer (42_correlator.md R131). That it is exactly the timeout
rests on the spec's decision D6 (assumption log 27: R127 case b tells claims to rely on `elapsed >= P.tmo` only), and that the disabled
TICK is refused by name is the model's choice (assumption log 7). -/
def Obligations.TicksBringTheTimeoutAbout : Prop :=
  ∀ (s : State) (r : Pending) (rest : List InputEvent) (n : Nat), Coherent s → OnTime s → s.p = some r →
    n = r.tmo.toNat - (s.now - r.t0).toNat → s.input = List.replicate n tickWord ++ rest →
      let due : State := { s with now := s.now + BitVec.ofNat 64 n, input := rest }
      Host.Core.run Sys2Proof.core n s = .next due ∧ exec .tick due = .refused .tickNotEnabled ∧
      ∃ t more, exec .tmrfire due = .next t ∧ t.st = .idle ∧ t.rxbuf = [] ∧
        t.trace = s.trace ++ .done (.fail (.commTimeout (BitVec.ofNat 64 r.tmo.toNat) r.tmo r.desc)) :: more

/-- A request that has ended, by a frame good or bad or by a timeout, leaves the gate open: with the port open the next DISPATCH with a
legal timeout is accepted (42_correlator.md R126, R133 property P5, 60_exceptions.md R234). -/
def Obligations.TheGateReopensAfterEveryCompletion : Prop :=
  ∀ (s t : State) (chunk : List Byte), s.st = .awaitingReply → s.portOpen = true →
    (exec (.rxchunk chunk) s = .next t ∧ 5 ≤ (s.rxbuf ++ chunk).length ∨ exec .tmrfire s = .next t) →
      ∀ (cmd sub : Int) (tmo : Millis) (desc : Desc) (allow : Bool), 1 ≤ tmo.toNat →
        ∃ frame, exec (.dispatch cmd sub tmo desc allow true) t = .next (accepted t .host desc allow tmo frame)

/-- A reply that comes after its request's timeout: in Idle it is logged as stray and discarded; once a next request has been accepted it
completes THAT request, with the late frame's result (70_reset_and_hazards.md R272). -/
def Obligations.LateRepliesAreStrayOrTakenForTheNextReply : Prop :=
  ∀ (s t : State) (late : List Byte), s.portOpen = true → exec .tmrfire s = .next t → late.length = 5 →
    exec (.rxchunk late) t = .next { t with trace := t.trace ++ [.log (.stray late)] } ∧
    ∀ (cmd sub : Int) (tmo : Millis) (desc : Desc) (allow : Bool), 1 ≤ tmo.toNat →
      ∃ u, exec (.dispatch cmd sub tmo desc allow true) t = .next u ∧ u.st = .awaitingReply ∧
        exec (.rxchunk late) u = .next { t with trace := u.trace ++ [.done (classify late allow)] }

/-- The outputs are never read back: what a step does is the same after any earlier trace (10_state.md R29 item e, 60_exceptions.md
R242). -/
def Obligations.OutputsAreNeverReadBack : Prop :=
  ∀ (before : List Output) (s : State), step (s.traceAfter before) = mapNext (State.traceAfter before) (step s)

/-- Only differences of times are ever used: a machine whose clock started later does the same (10_state.md R26). -/
def Obligations.OnlyTimeDifferencesMatter : Prop :=
  ∀ (d : Time) (s : State), step (s.shiftTime d) = mapNext (State.shiftTime d) (step s)

/-- Which failure is reported where: no step puts on DONE or REJECT a code that 60_exceptions.md R245 does not give that port; in
particular PROTOCOL_BAD_LENGTH never leaves the block. -/
def Obligations.EachPortReportsOnlyItsCodes : Prop :=
  ∀ s t : State, step s = .next t → ∃ outs, t.trace = s.trace ++ outs ∧ ∀ o ∈ outs, portCodeOk o

/-! ### The command catalog -/

/-- VALIDATE comes before any dispatch, the channel before the timeout: whatever the port and the gate, a channel outside 1..80 and then
a timeout of 0 end the call with INVALID_ARGUMENT, and nothing is sent or changed (43_command_catalog.md R150). -/
def Obligations.ValidationRefusesBeforeAnyDispatch : Prop :=
  (∀ (op : ChannelOp) (ch : Int) (tmo : Option Millis) (wrOk : Bool) (s : State), ch < 1 ∨ 80 < ch →
    exec (callInstr (.channel op ch) tmo wrOk) s = .next { s with trace := s.trace ++
      [.returned (.channel op ch) (.fail (.invalidArgument (.channel ch)))] }) ∧
  (∀ (c : Call) (wrOk : Bool) (s : State), (∀ op ch, c = .channel op ch → 1 ≤ ch ∧ ch ≤ 80) →
    exec (callInstr c (some 0#32) wrOk) s = .next { s with trace := s.trace ++
      [.returned c (.fail (.invalidArgument (.timeout 0#32)))] })

/-- A valid call whose DISPATCH is rejected returns that failure unchanged: for a closed port, then for a request in progress (nothing
else changes), then for a rejected write (43_command_catalog.md R151, 60_exceptions.md R231, 42_correlator.md R122). That the call
returns in the same step, after REJECT, is the model's choice (assumption logs 5 and 24); a rejected write makes the writes of R121's row
in any state (assumption log 19). -/
def Obligations.ARejectedCallReturnsTheRejection : Prop :=
  ∀ (c : Call) (tmo : Option Millis) (wrOk : Bool) (s : State), tmoOk tmo →
    (∀ op ch, c = .channel op ch → 1 ≤ ch ∧ ch ≤ 80) →
    (s.portOpen = false → exec (callInstr c tmo wrOk) s = .next { s with trace := s.trace ++
      [.reject (.portNotOpen .closed), .returned c (.fail (.portNotOpen .closed))] }) ∧
    (s.portOpen = true → s.st = .awaitingReply → exec (callInstr c tmo wrOk) s = .next { s with trace := s.trace ++
      [.reject (.invalidArgument .requestInProgress), .returned c (.fail (.invalidArgument .requestInProgress))] }) ∧
    (s.portOpen = true → s.st = .idle → exec (callInstr c tmo false) s = .next (finished s s.rxbuf
      [.reject (.portNotOpen .writeRejected), .returned c (.fail (.portNotOpen .writeRejected))]))

/-- VEND and VENDCHK with the port open and the gate free: one frame with the operation's open command byte for the channel and the
no-check marker 0x55 or the drop-check marker 0xAA, no `allow` (43_command_catalog.md R153, R154). -/
def Obligations.VendsSendTheirMarkers : Prop :=
  ∀ (ch : Int) (tmo : Option Millis) (s : State), 1 ≤ ch → ch ≤ 80 → tmoOk tmo → s.portOpen = true → s.st = .idle →
    exec (.vend ch tmo true) s = .next (accepted s (.call (.channel .vend ch)) (Config.descOf (.channel .vend ch)) false
      (tmoOf (.channel .vend) tmo) (requestFrame (Config.cmdVend ch) 0x55#8)) ∧
    exec (.vendchk ch tmo true) s = .next (accepted s (.call (.channel .vendChk ch))
      (Config.descOf (.channel .vendChk ch)) false (tmoOf (.channel .vendChk) tmo)
      (requestFrame (Config.cmdVendChk ch) 0xAA#8))

/-- The five whole-machine operations send the no-parameter marker 0x55, no `allow` (43_command_catalog.md R155 to R159). -/
def Obligations.WholeMachineOperationsSendTheNoParameterMarker : Prop :=
  ∀ (tmo : Option Millis) (s : State), tmoOk tmo → s.portOpen = true → s.st = .idle →
    let sent := fun op : PlainOp => accepted s (.call (.plain op)) (Config.descOf (.plain op)) false
      (tmoOf (.plain op) tmo) (requestFrame (Config.cmdPlain op) 0x55#8)
    exec (.selftest tmo true) s = .next (sent .selfTest) ∧ exec (.resetall tmo true) s = .next (sent .resetAll) ∧
    exec (.allspring tmo true) s = .next (sent .allSpring) ∧ exec (.allbelt tmo true) s = .next (sent .allBelt) ∧
    exec (.allsingle tmo true) s = .next (sent .allSingle)

/-- The two operations that let status ERROR through set `allow`: REPEAT with its open bytes, CHEXISTS with command byte 0x78 + channel and
the channel as parameter (43_command_catalog.md R160, R165, 30_encoding.md R66). -/
def Obligations.RepeatAndChexistsSetAllow : Prop :=
  ∀ (tmo : Option Millis) (s : State), tmoOk tmo → s.portOpen = true → s.st = .idle →
    exec (.repeatLast tmo true) s = .next (accepted s (.call (.plain .repeatLast)) (Config.descOf (.plain .repeatLast)) true
      (tmoOf (.plain .repeatLast) tmo) (requestFrame (Config.cmdPlain .repeatLast) Config.subRepeat)) ∧
    (∀ n : Nat, 1 ≤ n → n ≤ 80 →
      exec (.chexists n tmo true) s = .next (accepted s (.call (.channel .chExists n))
        (Config.descOf (.channel .chExists n)) true (tmoOf (.channel .chExists) tmo)
        (requestFrame (BitVec.ofNat 8 (0x78 + n)) (BitVec.ofNat 8 n))))

/-- The four topology operations send the channel as parameter, no `allow` (43_command_catalog.md R161 to R164). -/
def Obligations.TopologyOperationsSendTheChannel : Prop :=
  ∀ (n : Nat) (tmo : Option Millis) (s : State), 1 ≤ n → n ≤ 80 → tmoOk tmo → s.portOpen = true → s.st = .idle →
    let sent := fun (op : ChannelOp) (cmd : Byte) => accepted s (.call (.channel op n)) (Config.descOf (.channel op n)) false
      (tmoOf (.channel op) tmo) (requestFrame cmd (BitVec.ofNat 8 n))
    exec (.setbelt n tmo true) s = .next (sent .setBelt Config.cmdSetBelt) ∧
    exec (.setspring n tmo true) s = .next (sent .setSpring Config.cmdSetSpring) ∧
    exec (.mksingle n tmo true) s = .next (sent .mkSingle Config.cmdMkSingle) ∧
    exec (.mkdouble n tmo true) s = .next (sent .mkDouble Config.cmdMkDouble)

/-- The six numeric setters and thermo mode send their number masked to one byte, never refusing it, no `allow` (43_command_catalog.md
R166 to R171, R176, 30_encoding.md R65). -/
def Obligations.SettersSendTheMaskedNumber : Prop :=
  ∀ (v : Int) (tmo : Option Millis) (s : State), tmoOk tmo → s.portOpen = true → s.st = .idle →
    ∃ x : Byte, (x.toNat : Int) = v % 256 ∧
    let sent := fun op : ValueOp => accepted s (.call (.value op v)) (Config.descOf (.value op v)) false
      (tmoOf (.value op) tmo) (requestFrame (Config.cmdValue op) x)
    exec (.setpoint v tmo true) s = .next (sent .setPoint) ∧ exec (.hyst v tmo true) s = .next (sent .hyst) ∧
    exec (.comp v tmo true) s = .next (sent .comp) ∧ exec (.defrost v tmo true) s = .next (sent .defrost) ∧
    exec (.comprun v tmo true) s = .next (sent .compRun) ∧ exec (.fandelay v tmo true) s = .next (sent .fanDelay) ∧
    exec (.thermomode v tmo true) s = .next (sent .thermoMode)

/-- Each toggle sends the bytes of ONE of the two marker pairs, the same pair in every state, no `allow` (43_command_catalog.md R172 to
R175, 30_encoding.md R64). -/
def Obligations.TogglesSendOneMarkerPair : Prop :=
  ∃ marker : ToggleOp → Bool → Byte,
    (∀ op, (marker op true = 0x01#8 ∧ marker op false = 0x00#8) ∨ (marker op true = 0xAA#8 ∧ marker op false = 0x55#8)) ∧
    ∀ (on : Bool) (tmo : Option Millis) (s : State), tmoOk tmo → s.portOpen = true → s.st = .idle →
      let sent := fun op : ToggleOp => accepted s (.call (.toggle op on)) (Config.descOf (.toggle op on)) false
        (tmoOf (.toggle op) tmo) (requestFrame (Config.cmdToggle op) (marker op on))
      exec (.glassheat on tmo true) s = .next (sent .glassHeat) ∧ exec (.light on tmo true) s = .next (sent .light) ∧
      exec (.buzzer on tmo true) s = .next (sent .buzzer) ∧ exec (.tempctl on tmo true) s = .next (sent .tempCtl)

/-- The two reads send their open parameter byte, the two actuators 0xAA, no `allow` (43_command_catalog.md R177 to R180). -/
def Obligations.ReadsAndActuatorsSendTheirParameter : Prop :=
  ∀ (tmo : Option Millis) (s : State), tmoOk tmo → s.portOpen = true → s.st = .idle →
    let sent := fun (op : PlainOp) (sub : Byte) => accepted s (.call (.plain op)) (Config.descOf (.plain op)) false
      (tmoOf (.plain op) tmo) (requestFrame (Config.cmdPlain op) sub)
    exec (.rdtemp tmo true) s = .next (sent .rdTemp Config.subRdTemp) ∧
    exec (.rddoor tmo true) s = .next (sent .rdDoor Config.subRdDoor) ∧
    exec (.opendoor tmo true) s = .next (sent .openDoor 0xAA#8) ∧
    exec (.accelen tmo true) s = .next (sent .accelEn 0xAA#8)

/-- A call whose reply is `Ok` returns its operation's reading of the frame: dropped iff aux is 0xAA, existing iff status is 0x5D, data as
a signed temperature, door open iff data is 0x01, the channel of the other channel operations, the bare frame of the rest
(43_command_catalog.md R152 to R180, R182, 30_encoding.md R67, R68). That the call returns in the same step, after DONE, is the model's
choice (assumption logs 5 and 24). -/
def Obligations.OkRepliesAreInterpreted : Prop :=
  ∀ (s : State) (r : Pending) (c : Call) (chunk : List Byte) (f : Frame), s.st = .awaitingReply → s.p = some r →
    s.caller = .call c → 5 ≤ (s.rxbuf ++ chunk).length → classify ((s.rxbuf ++ chunk).take 5) r.allow = .ok f →
    let reading := match c with
      | .channel .vendChk ch => Reading.dropped ch (f.aux == 0xAA#8)
      | .channel .chExists ch => .existence ch (f.status == 0x5D#8)
      | .channel _ ch => .channel ch
      | .plain .rdTemp => .temperature f.data.toInt
      | .plain .rdDoor => .door (if f.data == 0x01#8 then .opened else .closed)
      | _ => .frameOnly
    exec (.rxchunk chunk) s = .next (finished s ((s.rxbuf ++ chunk).drop 5)
      [.done (.ok f), .returned c (.ok reading f)])

/-- A call whose request fails returns that failure unchanged: the failure of its frame, or the timeout (43_command_catalog.md R151). That
the call returns in the same step, after DONE, is the model's choice (assumption logs 5 and 24). -/
def Obligations.FailedCallsReturnTheFailureUnchanged : Prop :=
  ∀ (s : State) (r : Pending) (c : Call), s.st = .awaitingReply → s.p = some r → s.caller = .call c →
    (∀ (chunk : List Byte) (e : Failure), 5 ≤ (s.rxbuf ++ chunk).length →
      classify ((s.rxbuf ++ chunk).take 5) r.allow = .fail e →
      exec (.rxchunk chunk) s = .next (finished s ((s.rxbuf ++ chunk).drop 5)
        [.done (.fail e), .returned c (.fail e)])) ∧
    (s.tmrArmed = true → r.tmo.toNat ≤ (s.now - r.t0).toNat →
      exec .tmrfire s = .next (finished s []
        [.done (.fail (.commTimeout (s.now - r.t0) r.tmo r.desc)),
         .returned c (.fail (.commTimeout (s.now - r.t0) r.tmo r.desc))]))

/-- CONTROLLER_ERROR never comes out of REPEAT, CHEXISTS or a probe of POLL: the pending request always carries the `allow` flag of its
operation, and every step keeps this and returns no such result (60_exceptions.md R228, R245, 44_channel_poller.md R204). -/
def Obligations.ProbesNeverReportAControllerError : Prop :=
  ∀ s t : State, AllowMatches s → PollsClean s → step s = .next t →
    AllowMatches t ∧ PollsClean t ∧ ∃ outs, t.trace = s.trace ++ outs ∧ ∀ o ∈ outs, allowedOutput o

/-! ### The poller -/

/-- POLL with the port open, the gate free and a legal timeout: the bound is clamped into 1..80 and channel 1 is probed at once, by the
frame `00 FF 79 86 01 FE` with `allow` and the given timeout (44_channel_poller.md R200, R201, R203). -/
def Obligations.PollClampsItsBoundAndProbesChannelOne : Prop :=
  ∀ (maxChannel : Int) (delay tmo : Millis) (s : State), 1 ≤ tmo.toNat → s.portOpen = true → s.st = .idle →
    ∃ m : Nat, (m : Int) = min (max maxChannel 1) 80 ∧
    exec (.poll maxChannel delay tmo true) s = .next (accepted s (.poll ⟨m, delay, tmo, 1, [], s.now⟩)
      (Config.descOf (.channel .chExists 1)) true tmo [0x00#8, 0xFF#8, 0x79#8, 0x86#8, 0x01#8, 0xFE#8])

/-- POLL whose first probe is refused goes on all the same: the entry of channel 1 is `protocolError`, and the poll waits for its next
channel, or returns its list when the bound is 1. This holds for a timeout of 0 (nothing is sent or rejected: VALIDATE refuses) and for a
closed port, a busy gate and a rejected write (the DISPATCH is rejected) (44_channel_poller.md R200, R203, R204). That the entry and the
list come in the same step, after REJECT, is the model's choice (assumption logs 5 and 24), and so are the locals in State (log 11); a
rejected write makes the writes of 42_correlator.md R121's row (log 19). -/
def Obligations.PollGoesOnAfterARefusedProbe : Prop :=
  ∀ (maxChannel : Int) (delay tmo : Millis) (wrOk : Bool) (s : State),
    let entry : ProbeEntry := ⟨1, false, .protocolError⟩
    let goesOn := fun before : List Output =>
      if maxChannel ≤ 1 then { s with trace := s.trace ++ before ++ [.polled [entry]] }
      else { s with polls := s.polls ++ [⟨(min maxChannel 80).toNat, delay, tmo, 2, [entry], s.now⟩],
                    trace := s.trace ++ before }
    (tmo = 0#32 → exec (.poll maxChannel delay tmo wrOk) s = .next (goesOn [])) ∧
    (1 ≤ tmo.toNat → s.portOpen = false →
      exec (.poll maxChannel delay tmo wrOk) s = .next (goesOn [.reject (.portNotOpen .closed)])) ∧
    (1 ≤ tmo.toNat → s.portOpen = true → s.st = .awaitingReply →
      exec (.poll maxChannel delay tmo wrOk) s = .next (goesOn [.reject (.invalidArgument .requestInProgress)])) ∧
    (1 ≤ tmo.toNat → s.portOpen = true → s.st = .idle →
      exec (.poll maxChannel delay tmo false) s = .next
        { goesOn [.reject (.portNotOpen .writeRejected)] with p := none, tmrArmed := false, caller := .host })

/-- A probe that returns makes one entry: `ok` with `exists` iff the status is OK for an `Ok` frame, `timeout` for COMM_TIMEOUT,
`protocolError` for a bad checksum or status. With a channel left the poll then waits from now on; after the last it returns the list
(44_channel_poller.md R200, R202, R204, R205). That the poll resumes in the same step, after DONE, and that its list is an output are the
model's choices (assumption logs 24 and 5), and so are its locals in State (log 11). -/
def Obligations.AReturningProbeMakesOneEntry : Prop :=
  ∀ (s : State) (r : Pending) (p : PollCall), s.st = .awaitingReply → s.p = some r → s.caller = .poll p →
    r.allow = true →
    let next := fun (rx : List Byte) (result : Result) (entry : ProbeEntry) =>
      if p.bound ≤ p.channel then finished s rx [.done result, .polled (p.results ++ [entry])]
      else { finished s rx [.done result] with polls := s.polls ++
        [⟨p.bound, p.delay, p.tmo, p.channel + 1, p.results ++ [entry], s.now⟩] }
    (∀ (chunk : List Byte), 5 ≤ (s.rxbuf ++ chunk).length →
      let result := classify ((s.rxbuf ++ chunk).take 5) true
      let entry : ProbeEntry := match result with
        | .ok f => ⟨p.channel, f.status == 0x5D#8, .ok⟩
        | .fail _ => ⟨p.channel, false, .protocolError⟩
      exec (.rxchunk chunk) s = .next (next ((s.rxbuf ++ chunk).drop 5) result entry)) ∧
    (s.tmrArmed = true → r.tmo.toNat ≤ (s.now - r.t0).toNat →
      exec .tmrfire s = .next (next [] (.fail (.commTimeout (s.now - r.t0) r.tmo r.desc))
        ⟨p.channel, false, .timeout⟩))

/-- A turn of a paused poll: before NOW has advanced by the delay since its last probe returned it only waits, whatever the transport
would answer; from then on, with the port open, the gate free and the write taken, it leaves the list and probes its channel with `allow`
and its own timeout (44_channel_poller.md R202, R203). That turns are events of the list is the model's choice (assumption log 12), and so
is where the poll waits (log 11). What a refused probe does is the last statement. -/
def Obligations.APollTurnWaitsForTheDelayThenProbes : Prop :=
  ∀ (s : State) (p : PollCall) (index : Nat) (wrOk : Bool) (rest : List InputEvent), s.input = .pollTurn index wrOk :: rest →
    s.polls[index]? = some p →
    ((s.now - p.since).toNat < p.delay.toNat → step s = .next { s with input := rest }) ∧
    (p.delay.toNat ≤ (s.now - p.since).toNat → 1 ≤ p.channel → p.channel ≤ 80 → 1 ≤ p.tmo.toNat →
      s.portOpen = true → s.st = .idle → wrOk = true →
        step s = .next (accepted { s with input := rest, polls := s.polls.eraseIdx index } (.poll p)
          (Config.descOf (.channel .chExists p.channel)) true p.tmo
          (requestFrame (BitVec.ofNat 8 (0x78 + p.channel)) (BitVec.ofNat 8 p.channel))))

/-- Every step keeps the locals of every POLL in progress consistent (a channel within a bound of at most 80, one entry for each channel
before it, in order), and every list a step returns is of ONE call, the one whose last probe this step ends, and has exactly as many
entries as that call's bound, channels 1, 2, ... in order: a POLL of this very step whose bound is clamped to 1, the paused poll whose
turn this step is, or the poll that waits for the reply this step completes (a chunk, a response frame, the timer). No failure of a
probe ends a POLL early (44_channel_poller.md R200, R201, R205). Lists as outputs, the locals in State and the turns are the model's
choices (assumption logs 5, 11 and 12). -/
def Obligations.EveryPollReturnsOneEntryPerChannel : Prop :=
  ∀ s t : State, PollsConsistent s → step s = .next t →
    PollsConsistent t ∧ ∃ outs, t.trace = s.trace ++ outs ∧ ∀ es, .polled es ∈ outs → ChannelsInOrder es ∧
      ((∃ w rest maxChannel delay tmo wrOk, s.input = .word w :: rest ∧
          decode w = .ok (.poll maxChannel delay tmo wrOk) ∧ maxChannel ≤ 1 ∧ es.length = 1) ∨
        (∃ index wrOk rest p, s.input = .pollTurn index wrOk :: rest ∧ s.polls[index]? = some p ∧
          es.length = p.bound ∧ ∃ e, es = p.results ++ [e]) ∨
        (∃ w rest i p, s.input = .word w :: rest ∧ decode w = .ok i ∧ endsRequests i ∧ s.st = .awaitingReply ∧
          s.caller = .poll p ∧ es.length = p.bound ∧ ∃ e, es = p.results ++ [e]))

/-- A later probe, made at a turn whose wait is over, that is refused: the entry of its channel is `protocolError`, and the poll waits from
now on for its next channel, or returns its list after the last. This holds for a timeout of 0 (VALIDATE refuses, nothing is sent or
rejected), a closed port, a busy gate and a rejected write (44_channel_poller.md R200, R202, R203, R204). Turns as events (assumption log
12), entry and list in the same step after REJECT (logs 5 and 24), the locals in State (log 11) and the writes of a rejected write (log
19) are the model's choices. -/
def Obligations.ALaterRefusedProbeMakesAnEntryToo : Prop :=
  ∀ (s : State) (p : PollCall) (index : Nat) (wrOk : Bool) (rest : List InputEvent), s.input = .pollTurn index wrOk :: rest →
    s.polls[index]? = some p → p.delay.toNat ≤ (s.now - p.since).toNat → 1 ≤ p.channel → p.channel ≤ 80 →
    let entries := p.results ++ [⟨p.channel, false, .protocolError⟩]
    let others := s.polls.eraseIdx index
    let goesOn := fun before : List Output =>
      if p.bound ≤ p.channel then
        { s with input := rest, polls := others, trace := s.trace ++ before ++ [.polled entries] }
      else { s with input := rest, polls := others ++ [⟨p.bound, p.delay, p.tmo, p.channel + 1, entries, s.now⟩],
                    trace := s.trace ++ before }
    (p.tmo = 0#32 → step s = .next (goesOn [])) ∧
    (1 ≤ p.tmo.toNat → s.portOpen = false → step s = .next (goesOn [.reject (.portNotOpen .closed)])) ∧
    (1 ≤ p.tmo.toNat → s.portOpen = true → s.st = .awaitingReply →
      step s = .next (goesOn [.reject (.invalidArgument .requestInProgress)])) ∧
    (1 ≤ p.tmo.toNat → s.portOpen = true → s.st = .idle → wrOk = false →
      step s = .next
        { goesOn [.reject (.portNotOpen .writeRejected)] with p := none, tmrArmed := false, caller := .host })
end

