-- ==== Sys2Proof/Tests/Slice0.lean ====
section
/-! SUPPORT. Tests: ill-formed terms that the well-formedness check refuses, a word written out from the spec for every operation, the
spec's vectors (95_test_vectors.md, named T-... and E1 to E10 there) on single steps, and one witness for the hypotheses of every
statement that has some. -/

namespace Sys2Proof.Tests

open Machine

/-- A description of which nothing is known. -/
abbrev d0 : Desc := Config.tableDesc

/-! ### Well-formedness refuses -/

theorem test_integers_above_the_width_are_refused :
    ([.dispatch 2147483648 0 1#32 d0 false true, .dispatch 0 2147483648 1#32 d0 false true, .mask8 2147483648,
      .encreq 2147483648 0, .encreq 0 2147483648, .poll 2147483648 0#32 1#32 true] : List Instr).all
        (fun i => !wellFormed i) = true := by decide

theorem test_integers_below_the_width_are_refused :
    ([.dispatch (-2147483649) 0 1#32 d0 false true, .dispatch 0 (-2147483649) 1#32 d0 false true,
      .mask8 (-2147483649), .encreq (-2147483649) 0, .encreq 0 (-2147483649),
      .poll (-2147483649) 0#32 1#32 true] : List Instr).all (fun i => !wellFormed i) = true := by decide

theorem test_channels_outside_the_width_are_refused :
    ([.vend 2147483648 none true, .vendchk (-2147483649) none true, .setbelt 2147483648 none true,
      .setspring (-2147483649) none true, .mksingle 2147483648 none true, .mkdouble (-2147483649) none true,
      .chexists 2147483648 none true] : List Instr).all (fun i => !wellFormed i) = true := by decide

theorem test_numbers_outside_the_width_are_refused :
    ([.setpoint 2147483648 none true, .hyst (-2147483649) none true, .comp 2147483648 none true,
      .defrost (-2147483649) none true, .comprun 2147483648 none true, .fandelay (-2147483649) none true,
      .thermomode 2147483648 none true] : List Instr).all (fun i => !wellFormed i) = true := by decide

theorem test_the_ends_of_the_width_are_accepted :
    (wellFormed (.mask8 2147483647) && wellFormed (.mask8 (-2147483648))) = true := by decide

/-- RX_CHUNK_MAX is unbounded by default, so no chunk is refused; with a bound the check refuses a longer one (00_scope.md R7). -/
theorem test_chunks_over_a_bound_are_refused :
    fitsChunk (some 4) 5 = false ∧ fitsChunk (some 5) 5 = true ∧ fitsChunk none 5 = true := by decide

/-! ### Decoding (30_encoding.md R60, R61, R62, R66, R72) -/

/-- The word of an operation number with operand bytes. -/
def word (bytes : List Byte) : PortWord := ⟨.op, bytes, none⟩

theorem test_decode_events :
    decode (word [0x00#8]) = .ok .reset ∧ decode (word [0x01#8]) = .ok .portOpen ∧
    decode (word [0x02#8]) = .ok .portClose ∧ decode (word [0x05#8]) = .ok .tmrfire ∧
    decode (word [0x06#8]) = .ok .tick := ⟨rfl, rfl, rfl, rfl, rfl⟩

/-- T-DSP-9's operands: cmd 0x179, sub -1, tmo 1, allow 0, wr_ok 1, any description beside the bytes. -/
theorem test_decode_dispatch (desc : Desc) :
    decode ⟨.op, [0x03#8, 0x00#8, 0x00#8, 0x01#8, 0x79#8, 0xFF#8, 0xFF#8, 0xFF#8, 0xFF#8,
      0x00#8, 0x00#8, 0x00#8, 0x01#8, 0x00#8, 0x01#8], some desc⟩ =
        .ok (.dispatch 0x179 (-1) 1#32 desc false true) := rfl

/-- DISPATCH has a description and nothing else has one (30_encoding.md R73). -/
theorem test_decode_descriptions (desc : Desc) :
    decode ⟨.op, [0x03#8], none⟩ = .error .missingDescription ∧
    decode ⟨.op, [0x06#8], some desc⟩ = .error .unexpectedDescription ∧
    decode ⟨.errd, [0x53#8], some desc⟩ = .error .unexpectedDescription := ⟨rfl, rfl, rfl⟩

theorem test_decode_rxchunk :
    decode (word [0x04#8, 0x5D#8, 0x00#8]) = .ok (.rxchunk [0x5D#8, 0x00#8]) ∧
    decode (word [0x04#8]) = .ok (.rxchunk []) := ⟨rfl, rfl⟩

theorem test_decode_functions :
    decode (word [0x10#8, 0xFF#8, 0xFF#8, 0xFF#8, 0x80#8]) = .ok (.mask8 (-128)) ∧
    decode (word [0x11#8, 0x79#8]) = .ok (.compl 0x79#8) ∧
    decode (word [0x12#8, 0x00#8, 0x00#8, 0x00#8, 0x79#8, 0x00#8, 0x00#8, 0x00#8, 0x01#8]) =
      .ok (.encreq 0x79 0x01) ∧
    decode (word [0x13#8, 0x00#8, 0xFF#8]) = .ok (.chkreq [0x00#8, 0xFF#8]) ∧
    decode (word [0x14#8, 0x00#8, 0x5D#8, 0x19#8, 0xAA#8]) = .ok (.csum 0x00#8 0x5D#8 0x19#8 0xAA#8) ∧
    decode (word [0x15#8, 0x00#8, 0x5D#8, 0x19#8, 0xAA#8]) = .ok (.encrsp 0x00#8 0x5D#8 0x19#8 0xAA#8) ∧
    decode (word [0x16#8, 0x00#8, 0x5D#8]) = .ok (.decrsp [0x00#8, 0x5D#8]) ∧
    decode (word [0x17#8, 0x53#8]) = .ok (.errdec 0x53#8) ∧
    decode (word [0x18#8, 0x01#8, 0x00#8, 0x5C#8]) = .ok (.classify [0x00#8, 0x5C#8] true) :=
  ⟨rfl, rfl, rfl, rfl, rfl, rfl, rfl, rfl, rfl⟩

/-- The bits of R61 and of the table's rows RSP.OK and RSP.ERROR. -/
theorem test_decode_response_frames :
    decode ⟨.rsp, [0x07#8, 0b01011101#8, 0x01#8, 0x02#8, 0x67#8], none⟩ = .ok (.rspOk 0x07#8 0x01#8 0x02#8 0x67#8) ∧
    decode ⟨.rsp, [0x00#8, 0b01011100#8, 0x53#8, 0x00#8, 0xAF#8], none⟩ = .ok (.rspError 0x00#8 0x53#8 0x00#8 0xAF#8) :=
  ⟨rfl, rfl⟩

/-- Frame of channel 60 (E10), and the same with its group id changed (R70 item c). -/
theorem test_decode_request_frames :
    decode ⟨.req, [0x00#8, 0xFF#8, 0xB4#8, 0x4B#8, 0x3C#8, 0xC3#8], none⟩ = .ok (.encreq 0xB4 0x3C) ∧
    decode ⟨.req, [0x01#8, 0xFE#8, 0xB4#8, 0x4B#8, 0x3C#8, 0xC3#8], none⟩ = .error .badRequestFrame := ⟨rfl, rfl⟩

/-- A channel 12, a timeout of 0x01020304 ms, wr_ok 1. -/
theorem test_decode_channel_operations :
    let args : List Byte := [0x00#8, 0x00#8, 0x00#8, 0x0C#8, 0x01#8, 0x01#8, 0x02#8, 0x03#8, 0x04#8, 0x01#8]
    decode (word (0x20#8 :: args)) = .ok (.vend 12 (some 0x01020304#32) true) ∧
    decode (word (0x21#8 :: args)) = .ok (.vendchk 12 (some 0x01020304#32) true) ∧
    decode (word (0x28#8 :: args)) = .ok (.setbelt 12 (some 0x01020304#32) true) ∧
    decode (word (0x29#8 :: args)) = .ok (.setspring 12 (some 0x01020304#32) true) ∧
    decode (word (0x2A#8 :: args)) = .ok (.mksingle 12 (some 0x01020304#32) true) ∧
    decode (word (0x2B#8 :: args)) = .ok (.mkdouble 12 (some 0x01020304#32) true) ∧
    decode (word (0x2C#8 :: args)) = .ok (.chexists 12 (some 0x01020304#32) true) :=
  ⟨rfl, rfl, rfl, rfl, rfl, rfl, rfl⟩

/-- No timeout given, wr_ok 0. -/
theorem test_decode_plain_operations :
    let args : List Byte := [0x00#8, 0x00#8, 0x00#8, 0x00#8, 0x00#8, 0x00#8]
    decode (word (0x22#8 :: args)) = .ok (.selftest none false) ∧
    decode (word (0x23#8 :: args)) = .ok (.resetall none false) ∧
    decode (word (0x24#8 :: args)) = .ok (.allspring none false) ∧
    decode (word (0x25#8 :: args)) = .ok (.allbelt none false) ∧
    decode (word (0x26#8 :: args)) = .ok (.allsingle none false) ∧
    decode (word (0x27#8 :: args)) = .ok (.repeatLast none false) ∧
    decode (word (0x38#8 :: args)) = .ok (.rdtemp none false) ∧
    decode (word (0x39#8 :: args)) = .ok (.rddoor none false) ∧
    decode (word (0x3A#8 :: args)) = .ok (.opendoor none false) ∧
    decode (word (0x3B#8 :: args)) = .ok (.accelen none false) :=
  ⟨rfl, rfl, rfl, rfl, rfl, rfl, rfl, rfl, rfl, rfl⟩

/-- The number -5, no timeout, wr_ok 1. -/
theorem test_decode_setters :
    let args : List Byte := [0xFF#8, 0xFF#8, 0xFF#8, 0xFB#8, 0x00#8, 0x00#8, 0x00#8, 0x00#8, 0x00#8, 0x01#8]
    decode (word (0x2D#8 :: args)) = .ok (.setpoint (-5) none true) ∧
    decode (word (0x2E#8 :: args)) = .ok (.hyst (-5) none true) ∧
    decode (word (0x2F#8 :: args)) = .ok (.comp (-5) none true) ∧
    decode (word (0x30#8 :: args)) = .ok (.defrost (-5) none true) ∧
    decode (word (0x31#8 :: args)) = .ok (.comprun (-5) none true) ∧
    decode (word (0x32#8 :: args)) = .ok (.fandelay (-5) none true) ∧
    decode (word (0x37#8 :: args)) = .ok (.thermomode (-5) none true) := ⟨rfl, rfl, rfl, rfl, rfl, rfl, rfl⟩

theorem test_decode_toggles :
    let args : List Byte := [0x01#8, 0x00#8, 0x00#8, 0x00#8, 0x00#8, 0x00#8, 0x01#8]
    decode (word (0x33#8 :: args)) = .ok (.glassheat true none true) ∧
    decode (word (0x34#8 :: args)) = .ok (.light true none true) ∧
    decode (word (0x35#8 :: args)) = .ok (.buzzer true none true) ∧
    decode (word (0x36#8 :: args)) = .ok (.tempctl true none true) := ⟨rfl, rfl, rfl, rfl⟩

theorem test_decode_poll :
    decode (word [0x40#8, 0x00#8, 0x00#8, 0x00#8, 0x0A#8, 0x00#8, 0x00#8, 0x00#8, 0x14#8, 0x00#8, 0x00#8, 0x00#8,
      0x32#8, 0x01#8]) = .ok (.poll 10 20#32 50#32 true) := rfl

/-- Words that are no encoding are rejected by name. -/
theorem test_decode_rejects :
    decode (word []) = .error .emptyWord ∧ decode (word [0x07#8]) = .error .unknownOperation ∧
    decode (word [0x00#8, 0x00#8]) = .error .wrongLength ∧
    decode (word [0x18#8, 0x02#8]) = .error .badFlag ∧
    decode (word [0x22#8, 0x00#8, 0x00#8, 0x00#8, 0x00#8, 0x01#8, 0x00#8]) = .error .badTimeout :=
  ⟨rfl, rfl, rfl, rfl, rfl⟩

/-- Rows of opcode_table.json by their bits. -/
theorem test_table_words :
    decodeTableWord 8 0x01 = some .portOpen ∧ decodeTableWord 8 0x10 = some (.mask8 0) ∧
    decodeTableWord 8 0x03 = some (.dispatch 0 0 0#32 d0 false false) ∧
    decodeTableWord 8 0x53 = some (.errdec 0x53#8) ∧
    decodeTableWord 40 0x005D1900AF = some (.rspOk 0x00#8 0x19#8 0x00#8 0xAF#8) ∧
    decodeTableWord 40 0x005C000000 = some (.rspError 0x00#8 0x00#8 0x00#8 0x00#8) ∧
    decodeTableWord 48 0x00FF798601FE = some (.encreq 0x79 0x01) := ⟨rfl, rfl, rfl, rfl, rfl, rfl, rfl⟩

/-! ### States for single steps -/

/-- Idle. -/
def idleState (portOpen : Bool) (rxbuf : List Byte) (now : Time) : State :=
  { State.reset with portOpen := portOpen, rxbuf := rxbuf, now := now }

/-- A request of caller `c` in progress. -/
def pendingState (portOpen : Bool) (rxbuf : List Byte) (p : Pending) (now : Time) (c : Caller) : State :=
  { State.reset with st := .awaitingReply, portOpen := portOpen, rxbuf := rxbuf, p := some p, tmrArmed := true,
                     now := now, caller := c }

/-- The outputs of a step from a state with an empty trace. -/
def outputs (o : Host.Outcome State Fault Refusal) : List Output :=
  match o with
  | .next t => t.trace
  | .fault _ => []
  | .refused _ => []

/-- Bytes 4 and 5 of the one request frame sent, its `sub` and the complement of it. -/
def tail (o : Host.Outcome State Fault Refusal) : List Byte :=
  match outputs o with
  | [.tx frame] => frame.drop 4
  | _ => []

/-- What a catalog call returned. -/
def answer (o : Host.Outcome State Fault Refusal) : Option CallResult :=
  match outputs o with
  | [.done _, .returned _ r] => some r
  | _ => none

/-- The pending request `P0` of the RXCHUNK vectors and its like: description, allow, timeout, start. -/
def request (allow : Bool) (tmo : Millis) (t0 : Time) : Pending := ⟨d0, allow, tmo, t0⟩

/-- The answer of a call to a reply frame. -/
def reply (c : Call) (frame : List Byte) : Option CallResult :=
  answer (exec (.rxchunk frame) (pendingState true [] (request (callAllow c) 100#32 0#64) 0#64 (.call c)))

/-! ### The codec and the error decoder -/

theorem test_mask8_of_0x179 : outputs (exec (.mask8 0x179) State.reset) = [.value (.byte 0x79#8)] := by decide
theorem test_mask8_of_minus_5 : outputs (exec (.mask8 (-5)) State.reset) = [.value (.byte 0xFB#8)] := by decide
theorem test_compl_of_0x79 : outputs (exec (.compl 0x79#8) State.reset) = [.value (.byte 0x86#8)] := by decide
theorem test_compl_of_0x80 : outputs (exec (.compl 0x80#8) State.reset) = [.value (.byte 0x7F#8)] := by decide
theorem test_encreq_masks : outputs (exec (.encreq 0x179 (-1)) State.reset) =
    [.value (.bytes [0x00#8, 0xFF#8, 0x79#8, 0x86#8, 0xFF#8, 0x00#8])] := by decide
theorem test_chkreq_names_all_bad_pairs :
    outputs (exec (.chkreq [0x00#8, 0xFE#8, 0x79#8, 0x87#8, 0x01#8, 0xFF#8]) State.reset) =
      [.value (.check (.invalidPairs [0, 2, 4]))] := by decide
theorem test_chkreq_does_not_compare_the_group_id :
    outputs (exec (.chkreq [0x01#8, 0xFE#8, 0x79#8, 0x86#8, 0x01#8, 0xFE#8]) State.reset) =
      [.value (.check (.valid 0x01#8 0x79#8 0x01#8))] := by decide
theorem test_csum_drops_a_carry :
    outputs (exec (.csum 0x00#8 0x5D#8 0x00#8 0xAA#8) State.reset) = [.value (.byte 0x07#8)] := by decide
theorem test_csum_of_ones :
    outputs (exec (.csum 0xFF#8 0xFF#8 0xFF#8 0xFF#8) State.reset) = [.value (.byte 0xFC#8)] := by decide
theorem test_encrsp : outputs (exec (.encrsp 0xA3#8 0x5D#8 0x80#8 0x80#8) State.reset) =
    [.value (.bytes [0xA3#8, 0x5D#8, 0x80#8, 0x80#8, 0x00#8])] := by decide
theorem test_decrsp_bad_checksum : outputs (exec (.decrsp [0x00#8, 0x5D#8, 0x19#8, 0x76#8, 0x00#8]) State.reset) =
    [.value (.result (.fail (.badChecksum 0xEC#8 0x00#8 [0x00#8, 0x5D#8, 0x19#8, 0x76#8, 0x00#8])))] := by decide
theorem test_decrsp_ignores_the_status : outputs (exec (.decrsp [0x5D#8, 0x00#8, 0x00#8, 0x00#8, 0x5D#8]) State.reset) =
    [.value (.result (.ok ⟨0x5D#8, 0x00#8, 0x00#8, 0x00#8, [0x5D#8, 0x00#8, 0x00#8, 0x00#8, 0x5D#8]⟩))] := by decide
theorem test_errdec_of_0x21 : outputs (exec (.errdec 0x21#8) State.reset) =
    [.value (.errorInfo ⟨2#4, .nMosfetShort, 1#4, .falseTrigger⟩)] := by decide
theorem test_errdec_of_0xF0 : outputs (exec (.errdec 0xF0#8) State.reset) =
    [.value (.errorInfo ⟨15#4, .unknown, 0#4, .ok⟩)] := by decide
theorem test_classify_checks_the_sum_before_the_status :
    outputs (exec (.classify [0x00#8, 0x5C#8, 0x53#8, 0x00#8, 0x00#8] false) State.reset) =
      [.value (.result (.fail (.badChecksum 0xAF#8 0x00#8 [0x00#8, 0x5C#8, 0x53#8, 0x00#8, 0x00#8])))] := by decide
theorem test_classify_never_allows_an_unknown_status :
    outputs (exec (.classify [0x00#8, 0x5E#8, 0x00#8, 0x00#8, 0x5E#8] true) State.reset) =
      [.value (.result (.fail (.unexpectedStatus 0x5E#8 0x00#8 0x00#8 [0x00#8, 0x5E#8, 0x00#8, 0x00#8, 0x5E#8])))] := by
  decide

/-! ### The correlator -/

/-- T-DSP-6: a closed port wins over a busy gate. -/
theorem test_dispatch_closed_wins_over_busy :
    outputs (exec (.dispatch 1 2 10#32 d0 false true) (pendingState false [] (request false 10#32 5#64) 5#64 .host)) =
      [.reject (.portNotOpen .closed)] := by decide
/-- T-DSP-8: the buffer is not cleared. -/
theorem test_dispatch_keeps_a_remainder :
    exec (.dispatch 0x7A 0x02 100#32 d0 true true) (idleState true [0x11#8, 0x22#8] 50#64) =
      .next { pendingState true [0x11#8, 0x22#8] ⟨d0, true, 100#32, 50#64⟩ 50#64 .host with
              trace := [.tx [0x00#8, 0xFF#8, 0x7A#8, 0x85#8, 0x02#8, 0xFD#8]] } := rfl
/-- T-RX-3: a stray chunk does not touch a remainder. -/
theorem test_rxchunk_stray :
    exec (.rxchunk [0x33#8]) (idleState true [0x11#8, 0x22#8] 0#64) =
      .next { idleState true [0x11#8, 0x22#8] 0#64 with trace := [.log (.stray [0x33#8])] } := rfl
/-- T-RX-12: a misaligned frame and a new remainder. -/
theorem test_rxchunk_misaligned :
    exec (.rxchunk [0x00#8, 0x5D#8, 0x00#8, 0x00#8, 0x5D#8])
        (pendingState true [0x11#8, 0x22#8] (request true 100#32 50#64) 50#64 .host) =
      .next { idleState true [0x00#8, 0x5D#8] 50#64 with trace :=
        [.done (.fail (.badChecksum 0x90#8 0x00#8 [0x11#8, 0x22#8, 0x00#8, 0x5D#8, 0x00#8]))] } := rfl
/-- T-TMR-4: the counter wrapped. -/
theorem test_tmrfire_across_a_wrap :
    exec .tmrfire (pendingState true [0x00#8] (request false 5#32 18446744073709551614#64) 3#64 .host) =
      .next { idleState true [] 3#64 with trace := [.done (.fail (.commTimeout 5#64 5#32 d0))] } := rfl
/-- T-TMR-2: not due. -/
theorem test_tmrfire_not_due :
    exec .tmrfire (pendingState true [] (request true 3#32 77#64) 79#64 .host) = .refused .timerNotEnabled := rfl
/-- T-TICK-2: the counter wraps. -/
theorem test_tick_wraps :
    exec .tick (idleState true [] 18446744073709551615#64) = .next (idleState true [] 0#64) := rfl
/-- T-TICK-4: a deadline is due. -/
theorem test_tick_disabled :
    exec .tick (pendingState true [] (request true 3#32 0#64) 3#64 .host) = .refused .tickNotEnabled := rfl
/-- T-OC-1. -/
theorem test_open : exec .portOpen (idleState false [] 9#64) = .next (idleState true [] 9#64) := rfl
/-- T-OC-3: the request stays. -/
theorem test_close_leaves_the_request :
    exec .portClose (pendingState true [0x00#8] (request false 10#32 5#64) 9#64 .host) =
      .next (pendingState false [0x00#8] (request false 10#32 5#64) 9#64 .host) := rfl
/-- T-RST-1: NOW keeps its value, no DONE. -/
theorem test_reset_ends_a_request :
    exec .reset (pendingState true [0x00#8, 0x5D#8] (request false 10#32 5#64) 9#64 .host) =
      .next (idleState false [] 9#64) := rfl
/-- T-RX-6 as a whole frame. -/
theorem test_rspOk :
    exec (.rspOk 0x00#8 0x00#8 0x00#8 0x5D#8) (pendingState true [] (request true 100#32 0#64) 0#64 .host) =
      .next { idleState true [] 0#64 with trace :=
        [.done (.ok ⟨0x00#8, 0x5D#8, 0x00#8, 0x00#8, [0x00#8, 0x5D#8, 0x00#8, 0x00#8, 0x5D#8]⟩)] } := rfl
/-- T-RX-13 as a whole frame. -/
theorem test_rspError :
    outputs (exec (.rspError 0x00#8 0x53#8 0x00#8 0xAF#8) (pendingState true [] (request false 100#32 0#64) 0#64 .host)) =
      [.done (.fail (.controllerError 0x5C#8 0x53#8 0x00#8
        ⟨5#4, .motorRotationTimeout, 3#4, .ambiguousConstantSignalDuringVend⟩
        [0x00#8, 0x5C#8, 0x53#8, 0x00#8, 0xAF#8]))] := by decide

/-! ### The catalog (95_test_vectors.md, T-CAT) -/

/-- A frame with status OK, data `d`, aux `a`, checksum `k`. -/
def okFrame (d a k : Byte) : List Byte := [0x00#8, 0x5D#8, d, a, k]

/-- What `okFrame` parses to. -/
def okParsed (d a k : Byte) : Frame := ⟨0x00#8, 0x5D#8, d, a, okFrame d a k⟩

theorem test_vend_tail : tail (exec (.vend 12 (some 9#32) true) (idleState true [] 0#64)) = [0x55#8, 0xAA#8] := rfl
theorem test_vend_channel_before_timeout :
    outputs (exec (.vend 81 (some 0#32) true) (idleState true [] 0#64)) =
      [.returned (.channel .vend 81) (.fail (.invalidArgument (.channel 81)))] := rfl
theorem test_vendchk_tail : tail (exec (.vendchk 3 (some 9#32) true) (idleState true [] 0#64)) = [0xAA#8, 0x55#8] := rfl
theorem test_vendchk_dropped : reply (.channel .vendChk 3) (okFrame 0x00#8 0xAA#8 0x07#8) =
    some (.ok (.dropped 3 true) (okParsed 0x00#8 0xAA#8 0x07#8)) := by decide
theorem test_selftest_tail : tail (exec (.selftest (some 9#32) true) (idleState true [] 0#64)) = [0x55#8, 0xAA#8] := rfl
theorem test_resetall_tail : tail (exec (.resetall (some 9#32) true) (idleState true [] 0#64)) = [0x55#8, 0xAA#8] := rfl
theorem test_allspring_tail : tail (exec (.allspring (some 9#32) true) (idleState true [] 0#64)) = [0x55#8, 0xAA#8] := rfl
theorem test_allbelt_tail : tail (exec (.allbelt (some 9#32) true) (idleState true [] 0#64)) = [0x55#8, 0xAA#8] := rfl
theorem test_allsingle_tail : tail (exec (.allsingle (some 9#32) true) (idleState true [] 0#64)) = [0x55#8, 0xAA#8] := rfl
theorem test_repeat_error_is_a_result : reply (.plain .repeatLast) [0x00#8, 0x5C#8, 0x53#8, 0x00#8, 0xAF#8] =
    some (.ok .frameOnly ⟨0x00#8, 0x5C#8, 0x53#8, 0x00#8, [0x00#8, 0x5C#8, 0x53#8, 0x00#8, 0xAF#8]⟩) := by decide
theorem test_setbelt_tail : tail (exec (.setbelt 7 (some 9#32) true) (idleState true [] 0#64)) = [0x07#8, 0xF8#8] := rfl
theorem test_setspring_tail : tail (exec (.setspring 7 (some 9#32) true) (idleState true [] 0#64)) = [0x07#8, 0xF8#8] := rfl
theorem test_mksingle_tail : tail (exec (.mksingle 80 (some 9#32) true) (idleState true [] 0#64)) = [0x50#8, 0xAF#8] := rfl
theorem test_mkdouble_tail : tail (exec (.mkdouble 80 (some 9#32) true) (idleState true [] 0#64)) = [0x50#8, 0xAF#8] := rfl
theorem test_chexists_61 : outputs (exec (.chexists 61 (some 9#32) true) (idleState true [] 0#64)) =
    [.tx [0x00#8, 0xFF#8, 0xB5#8, 0x4A#8, 0x3D#8, 0xC2#8]] := rfl
theorem test_chexists_error_is_absence : reply (.channel .chExists 61) [0x00#8, 0x5C#8, 0x00#8, 0x00#8, 0x5C#8] =
    some (.ok (.existence 61 false) ⟨0x00#8, 0x5C#8, 0x00#8, 0x00#8, [0x00#8, 0x5C#8, 0x00#8, 0x00#8, 0x5C#8]⟩) := by decide
theorem test_setpoint_minus_5 : tail (exec (.setpoint (-5) (some 9#32) true) (idleState true [] 0#64)) = [0xFB#8, 0x04#8] := rfl
theorem test_hyst_4 : tail (exec (.hyst 4 (some 9#32) true) (idleState true [] 0#64)) = [0x04#8, 0xFB#8] := rfl
theorem test_comp_300 : tail (exec (.comp 300 (some 9#32) true) (idleState true [] 0#64)) = [0x2C#8, 0xD3#8] := rfl
theorem test_defrost_256 : tail (exec (.defrost 256 (some 9#32) true) (idleState true [] 0#64)) = [0x00#8, 0xFF#8] := rfl
theorem test_comprun_255 : tail (exec (.comprun 255 (some 9#32) true) (idleState true [] 0#64)) = [0xFF#8, 0x00#8] := rfl
theorem test_fandelay_minus_128 : tail (exec (.fandelay (-128) (some 9#32) true) (idleState true [] 0#64)) =
    [0x80#8, 0x7F#8] := rfl
theorem test_thermomode_3 : tail (exec (.thermomode 3 (some 9#32) true) (idleState true [] 0#64)) = [0x03#8, 0xFC#8] := rfl

/-- The four toggles with the pair (0xAA, 0x55), as T-CAT-19. -/
theorem test_toggles_with_the_aa_pair (h : ∀ op, Config.toggleUsesAA op = true) :
    tail (exec (.light true (some 9#32) true) (idleState true [] 0#64)) = [0xAA#8, 0x55#8] ∧
    tail (exec (.glassheat false (some 9#32) true) (idleState true [] 0#64)) = [0x55#8, 0xAA#8] := by
  constructor
  · show [maskByte (toggleMarker .light true).toNat, complByte (maskByte (toggleMarker .light true).toNat)] = _
    rw [maskByte_byte, toggleMarker, h]; rfl
  · show [maskByte (toggleMarker .glassHeat false).toNat, complByte (maskByte (toggleMarker .glassHeat false).toNat)] = _
    rw [maskByte_byte, toggleMarker, h]; rfl

/-- Toggles with the pair (0x01, 0x00), as T-CAT-20. -/
theorem test_toggles_with_the_01_pair (h : ∀ op, Config.toggleUsesAA op = false) :
    tail (exec (.buzzer true (some 9#32) true) (idleState true [] 0#64)) = [0x01#8, 0xFE#8] ∧
    tail (exec (.tempctl false (some 9#32) true) (idleState true [] 0#64)) = [0x00#8, 0xFF#8] := by
  constructor
  · show [maskByte (toggleMarker .buzzer true).toNat, complByte (maskByte (toggleMarker .buzzer true).toNat)] = _
    rw [maskByte_byte, toggleMarker, h]; rfl
  · show [maskByte (toggleMarker .tempCtl false).toNat, complByte (maskByte (toggleMarker .tempCtl false).toNat)] = _
    rw [maskByte_byte, toggleMarker, h]; rfl

theorem test_rdtemp_minus_128 : reply (.plain .rdTemp) (okFrame 0x80#8 0x00#8 0xDD#8) =
    some (.ok (.temperature (-128)) (okParsed 0x80#8 0x00#8 0xDD#8)) := by decide
theorem test_rdtemp_127 : reply (.plain .rdTemp) (okFrame 0x7F#8 0x00#8 0xDC#8) =
    some (.ok (.temperature 127) (okParsed 0x7F#8 0x00#8 0xDC#8)) := by decide
theorem test_rddoor_open : reply (.plain .rdDoor) (okFrame 0x01#8 0x00#8 0x5E#8) =
    some (.ok (.door .opened) (okParsed 0x01#8 0x00#8 0x5E#8)) := by decide
theorem test_rddoor_only_0x01_is_open : reply (.plain .rdDoor) (okFrame 0x02#8 0x00#8 0x5F#8) =
    some (.ok (.door .closed) (okParsed 0x02#8 0x00#8 0x5F#8)) := by decide
theorem test_opendoor_tail : tail (exec (.opendoor (some 9#32) true) (idleState true [] 0#64)) = [0xAA#8, 0x55#8] := rfl
theorem test_accelen_tail : tail (exec (.accelen (some 9#32) true) (idleState true [] 0#64)) = [0xAA#8, 0x55#8] := rfl

/-! ### The poller -/

/-- T-POLL-2 and E10: a bound below 1 polls channel 1. -/
theorem test_poll_probes_channel_1 : outputs (exec (.poll (-7) 10#32 50#32 true) (idleState true [] 0#64)) =
    [.tx [0x00#8, 0xFF#8, 0x79#8, 0x86#8, 0x01#8, 0xFE#8]] := rfl

/-- T-POLL-6: a bad checksum is `protocolError`, and channel 2 is still to be probed. -/
theorem test_poll_goes_on_after_a_bad_checksum :
    exec (.rxchunk [0x00#8, 0x5D#8, 0x00#8, 0x00#8, 0x5E#8])
        (pendingState true [] (request true 50#32 0#64) 7#64 (.poll ⟨2, 10#32, 50#32, 1, [], 0#64⟩)) =
      .next { idleState true [] 7#64 with
        polls := [⟨2, 10#32, 50#32, 2, [⟨1, false, .protocolError⟩], 7#64⟩],
        trace := [.done (.fail (.badChecksum 0x5D#8 0x5E#8 [0x00#8, 0x5D#8, 0x00#8, 0x00#8, 0x5E#8]))] } := rfl

/-! ### Witnesses: concrete values that meet the hypotheses of the statements -/

/-- `s` with one event given. -/
def given (s : State) (e : InputEvent) : State := { s with input := [e] }

/-- A host's request in progress, timeout 3, started at 0, with buffer `rxbuf` at time `now`. -/
def hostState (rxbuf : List Byte) (now : Time) : State := pendingState true rxbuf (request false 3#32 0#64) now .host

/-- A poll at its last channel, with one entry made. -/
def lastProbe : PollCall := ⟨2, 10#32, 50#32, 2, [⟨1, true, .ok⟩], 0#64⟩

/-- A poll waiting for channel 80. -/
def pausedPoll (results : List ProbeEntry) : PollCall := ⟨80, 10#32, 1#32, 80, results, 5#64⟩

/-- A complete good reply. -/
def goodReply : List Byte := okFrame 0x00#8 0x00#8 0x5D#8

theorem witness_DecodeReadsBackEveryEncodedOperation :
    wellFormed (.dispatch 2147483647 (-2147483648) 0#32 d0 true false) = true ∧
    wellFormed (.poll (-2147483648) 0#32 0#32 true) = true := by decide

theorem witness_EncodeReadsBackEveryDecodedWord :
    (word [0x40#8, 0x80#8, 0x00#8, 0x00#8, 0x00#8, 0x00#8, 0x00#8, 0x00#8, 0x00#8, 0x00#8, 0x00#8, 0x00#8, 0x00#8,
      0x01#8]).format = .op ∧
    decode (word [0x40#8, 0x80#8, 0x00#8, 0x00#8, 0x00#8, 0x00#8, 0x00#8, 0x00#8, 0x00#8, 0x00#8, 0x00#8, 0x00#8,
      0x00#8, 0x01#8]) = .ok (.poll (-2147483648) 0#32 0#32 true) := ⟨rfl, rfl⟩

theorem witness_DecodedOperationsAreWellFormed :
    decode ⟨.req, [0x00#8, 0xFF#8, 0xFF#8, 0x00#8, 0xFF#8, 0x00#8], none⟩ = .ok (.encreq 255 255) := rfl

theorem witness_StepRunsTheDecodedOperation :
    (given State.reset tickWord).input = .word (encode .tick) :: [] ∧ decode (encode .tick) = .ok .tick := ⟨rfl, rfl⟩

theorem witness_StepWithoutAnOperation :
    State.reset.input = [] ∧
    ((given State.reset (.word (word [0x07#8]))).input = .word (word [0x07#8]) :: [] ∧
      decode (word [0x07#8]) = .error .unknownOperation) ∧
    (given State.reset (.pollTurn 0 true)).input = .pollTurn 0 true :: [] := ⟨rfl, ⟨rfl, rfl⟩, rfl⟩

theorem witness_ChkreqNamesTheBadPairs :
    ([0x00#8, 0xFF#8, 0x79#8, 0x86#8, 0x01#8] : List Byte).length ≠ 6 ∧
    ([0x00#8, 0xFF#8, 0x79#8, 0x86#8, 0x01#8, 0xFE#8, 0x00#8] : List Byte).length ≠ 6 := by decide

theorem witness_OneBitErrorsOfARequestAreDetected : (7 : Nat) < 8 ∧ (5 : Nat) < 6 ∧ (2 : Nat) < 3 := by decide

theorem witness_DecrspTestsLengthThenChecksum :
    ([0x00#8, 0x5D#8, 0x00#8, 0x00#8] : List Byte).length ≠ 5 ∧
    ([0x00#8, 0x5D#8, 0x00#8, 0x00#8, 0x5D#8, 0x00#8] : List Byte).length ≠ 5 := by decide

theorem witness_SingleByteErrorsOfAResponseAreDetected :
    decodeResponse goodReply = .ok (okParsed 0x00#8 0x00#8 0x5D#8) ∧
    ((0 : Nat) < 5 ∧ goodReply.getD 0 0x00#8 ≠ 0x01#8) ∧ ((4 : Nat) < 5 ∧ goodReply.getD 4 0x00#8 ≠ 0x5C#8) := by
  decide

theorem witness_ClassifyReportsTheFirstFailure :
    ([0x00#8, 0x5D#8, 0x00#8, 0x00#8] : List Byte).length ≠ 5 ∧ ([] : List Byte).length ≠ 5 := by decide

theorem witness_DispatchRejectsInOrderOrSends :
    Coherent (idleState true [] 0#64) ∧ Coherent (hostState [] 0#64) := by
  simp [Coherent, idleState, hostState, pendingState, request, State.reset]

theorem witness_RxchunkDiscardsBuffersOrCompletes :
    (idleState true [] 0#64).st = .idle ∧
    ((hostState [0x00#8] 0#64).st = .awaitingReply ∧
      ((hostState [0x00#8] 0#64).rxbuf ++ [0x5D#8, 0x00#8, 0x00#8]).length < 5) ∧
    ((hostState [0x00#8] 0#64).st = .awaitingReply ∧
      5 ≤ ((hostState [0x00#8] 0#64).rxbuf ++ [0x5D#8, 0x00#8, 0x00#8, 0x5D#8]).length ∧
      (hostState [0x00#8] 0#64).p = some (request false 3#32 0#64) ∧ (hostState [0x00#8] 0#64).caller = .host) := by
  and_intros <;> first | rfl | decide

theorem witness_ResponseFramesCompleteTheRequest :
    (hostState [] 0#64).st = .awaitingReply ∧ (hostState [] 0#64).p = some (request false 3#32 0#64) ∧
    (hostState [] 0#64).rxbuf = [] ∧ (hostState [] 0#64).caller = .host := by
  and_intros <;> rfl

theorem witness_ChunkBoundariesBeforeTheFifthByteDoNotMatter :
    (hostState [0x00#8] 0#64).st = .awaitingReply ∧
    ((hostState [0x00#8] 0#64).rxbuf ++ [0x5D#8, 0x00#8, 0x00#8]).length < 5 := by decide

theorem witness_ChunkBoundariesAfterTheFifthByteMatter :
    (hostState [] 0#64).st = .awaitingReply ∧ (hostState [] 0#64).p = some (request false 3#32 0#64) ∧
    (hostState [] 0#64).rxbuf = [] ∧ goodReply.length = 5 ∧ ([0x11#8, 0x22#8] : List Byte) ≠ [] := by
  and_intros <;> first | rfl | decide

theorem witness_RemaindersPersistOrHealByChunking :
    ((hostState [0x11#8] 0#64).st = .awaitingReply ∧
      (hostState [0x11#8] 0#64).p = some (request false 3#32 0#64) ∧
      1 ≤ (hostState [0x11#8] 0#64).rxbuf.length ∧
      (hostState [0x11#8, 0x22#8, 0x33#8, 0x44#8] 0#64).rxbuf.length ≤ 4 ∧ goodReply.length = 5) ∧
    ∃ t, exec (.rxchunk [0x00#8]) (hostState [0x11#8, 0x22#8, 0x33#8, 0x44#8] 0#64) = .next t ∧ t.st = .idle :=
  ⟨by and_intros <;> rfl, _, rfl, rfl⟩

theorem witness_TmrfireEndsTheRequestWithCommTimeout :
    (hostState [] 3#64).st = .awaitingReply ∧ (hostState [] 3#64).tmrArmed = true ∧
    (hostState [] 3#64).p = some (request false 3#32 0#64) ∧ (hostState [] 3#64).caller = .host ∧
    (request false 3#32 0#64).tmo.toNat ≤ ((hostState [] 3#64).now - (request false 3#32 0#64).t0).toNat := by
  and_intros <;> rfl

theorem witness_TickAdvancesTimeByOne :
    (idleState true [] 0#64).st = .idle ∧
    ((hostState [] 2#64).p = some (request false 3#32 0#64) ∧
      ((hostState [] 2#64).now - (request false 3#32 0#64).t0).toNat < (request false 3#32 0#64).tmo.toNat) := by
  and_intros <;> first | rfl | decide

theorem witness_TimeEventsAreRefusedWhenNotEnabled :
    (idleState true [] 0#64).st = .idle ∧ (idleState true [] 0#64).tmrArmed = false ∧
    ((hostState [] 2#64).p = some (request false 3#32 0#64) ∧
      ((hostState [] 2#64).now - (request false 3#32 0#64).t0).toNat < (request false 3#32 0#64).tmo.toNat) ∧
    ((hostState [] 3#64).st = .awaitingReply ∧ (hostState [] 3#64).p = some (request false 3#32 0#64) ∧
      (request false 3#32 0#64).tmo.toNat ≤ ((hostState [] 3#64).now - (request false 3#32 0#64).t0).toNat) := by
  and_intros <;> first | rfl | decide

theorem witness_EveryStepKeepsTheStateCoherent :
    Coherent (given (hostState [] 0#64) tickWord) ∧ ∃ t, step (given (hostState [] 0#64) tickWord) = .next t :=
  ⟨by simp [Coherent, given, hostState, pendingState, request, State.reset], _, rfl⟩

theorem witness_AFullFrameIsBufferedOnlyByARemainder :
    (∃ t, exec (.rxchunk [0x00#8, 0x5D#8, 0x00#8, 0x00#8]) (hostState [] 0#64) = .next t ∧ t.st = .awaitingReply) ∧
    ∃ t, step (given (hostState goodReply 0#64) tickWord) = .next t ∧ t.st = .awaitingReply ∧ 5 ≤ t.rxbuf.length :=
  ⟨⟨_, rfl, rfl⟩, _, rfl, rfl, by decide⟩

theorem witness_CoherentStatesNeverFault : Coherent (given (hostState [] 3#64) (.word (encode .tmrfire))) := by
  simp [Coherent, given, hostState, pendingState, request, State.reset]

theorem witness_TheTimerFiresExactlyOnTime :
    (Coherent (given (hostState [] 2#64) tickWord) ∧ OnTime (given (hostState [] 2#64) tickWord) ∧
      ∃ t, step (given (hostState [] 2#64) tickWord) = .next t) ∧
    (OnTime (hostState [] 3#64) ∧ ∃ t, exec .tmrfire (hostState [] 3#64) = .next t) :=
  ⟨⟨by simp [Coherent, given, hostState, pendingState, request, State.reset],
    by simp [OnTime, given, hostState, pendingState, request, elapsedSince], _, rfl⟩,
    by simp [OnTime, hostState, pendingState, request, elapsedSince], _, rfl⟩

theorem witness_EveryAcceptedRequestCompletesOnce :
    (∃ t, step (given (hostState [] 0#64) tickWord) = .next t) ∧
    ∀ w rest, (given (hostState [] 0#64) tickWord).input = .word w :: rest → decode w ≠ .ok .reset := by
  refine ⟨⟨_, rfl⟩, fun w rest h hd => ?_⟩
  cases h
  exact absurd hd (by rw [show decode (encode .tick) = .ok .tick from rfl]; simp)

theorem witness_TicksBringTheTimeoutAbout :
    Coherent { hostState [] 1#64 with input := [tickWord, tickWord] } ∧
    OnTime { hostState [] 1#64 with input := [tickWord, tickWord] } ∧
    (hostState [] 1#64).p = some (request false 3#32 0#64) ∧
    2 = (request false 3#32 0#64).tmo.toNat - ((hostState [] 1#64).now - (request false 3#32 0#64).t0).toNat ∧
    [tickWord, tickWord] = List.replicate 2 tickWord ++ [] :=
  ⟨by simp [Coherent, hostState, pendingState, request, State.reset],
    by simp [OnTime, hostState, pendingState, request, elapsedSince], rfl, by decide, rfl⟩

theorem witness_TheGateReopensAfterEveryCompletion :
    (hostState [] 3#64).st = .awaitingReply ∧ (hostState [] 3#64).portOpen = true ∧
    (∃ t, exec (.rxchunk goodReply) (hostState [] 3#64) = .next t ∧
      5 ≤ ((hostState [] 3#64).rxbuf ++ goodReply).length) ∧
    (∃ t, exec .tmrfire (hostState [] 3#64) = .next t) ∧ 1 ≤ (1#32).toNat :=
  ⟨rfl, rfl, ⟨_, rfl, by decide⟩, ⟨_, rfl⟩, by decide⟩

theorem witness_LateRepliesAreStrayOrTakenForTheNextReply :
    (hostState [0x00#8] 3#64).portOpen = true ∧ (∃ t, exec .tmrfire (hostState [0x00#8] 3#64) = .next t) ∧
    goodReply.length = 5 ∧ 1 ≤ (1#32).toNat := ⟨rfl, ⟨_, rfl⟩, rfl, by decide⟩

theorem witness_EachPortReportsOnlyItsCodes :
    ∃ t, step (given (hostState [] 3#64) (.word (encode .tmrfire))) = .next t := ⟨_, rfl⟩

theorem witness_ValidationRefusesBeforeAnyDispatch :
    ((0 : Int) < 1 ∨ 80 < (0 : Int)) ∧ ((81 : Int) < 1 ∨ 80 < (81 : Int)) ∧
    (∀ op ch, Call.channel .vend 80 = .channel op ch → 1 ≤ ch ∧ ch ≤ 80) ∧
    (∀ op ch, Call.plain .selfTest = .channel op ch → 1 ≤ ch ∧ ch ≤ 80) := by
  refine ⟨by decide, by decide, fun op ch h => ?_, fun op ch h => ?_⟩ <;> cases h
  decide

theorem witness_ARejectedCallReturnsTheRejection :
    tmoOk (some 1#32) ∧ tmoOk none ∧ (∀ op ch, Call.channel .vend 1 = .channel op ch → 1 ≤ ch ∧ ch ≤ 80) ∧
    (idleState false [] 0#64).portOpen = false ∧
    ((hostState [] 0#64).portOpen = true ∧ (hostState [] 0#64).st = .awaitingReply) ∧
    ((idleState true [] 0#64).portOpen = true ∧ (idleState true [] 0#64).st = .idle) := by
  refine ⟨by simp [tmoOk], by simp [tmoOk], fun op ch h => ?_, rfl, ⟨rfl, rfl⟩, rfl, rfl⟩
  cases h
  decide

theorem witness_VendsSendTheirMarkers :
    ((1 : Int) ≤ 1 ∧ (1 : Int) ≤ 80) ∧ ((1 : Int) ≤ 80 ∧ (80 : Int) ≤ 80) ∧ tmoOk (some 1#32) ∧ tmoOk none ∧
    (idleState true [] 0#64).portOpen = true ∧ (idleState true [] 0#64).st = .idle := by
  simp [tmoOk, idleState, State.reset]

theorem witness_WholeMachineOperationsSendTheNoParameterMarker :
    tmoOk (some 1#32) ∧ tmoOk none ∧ (idleState true [] 0#64).portOpen = true ∧
    (idleState true [] 0#64).st = .idle := by simp [tmoOk, idleState, State.reset]

theorem witness_RepeatAndChexistsSetAllow :
    tmoOk (some 1#32) ∧ (idleState true [] 0#64).portOpen = true ∧ (idleState true [] 0#64).st = .idle ∧
    ((1 : Nat) ≤ 1 ∧ (1 : Nat) ≤ 80) ∧ ((1 : Nat) ≤ 80 ∧ (80 : Nat) ≤ 80) := by simp [tmoOk, idleState, State.reset]

theorem witness_TopologyOperationsSendTheChannel :
    ((1 : Nat) ≤ 1 ∧ (1 : Nat) ≤ 80) ∧ ((1 : Nat) ≤ 80 ∧ (80 : Nat) ≤ 80) ∧ tmoOk (some 1#32) ∧
    (idleState true [] 0#64).portOpen = true ∧ (idleState true [] 0#64).st = .idle := by
  simp [tmoOk, idleState, State.reset]

theorem witness_SettersSendTheMaskedNumber :
    tmoOk (some 1#32) ∧ tmoOk none ∧ (idleState true [] 0#64).portOpen = true ∧
    (idleState true [] 0#64).st = .idle := by simp [tmoOk, idleState, State.reset]

theorem witness_TogglesSendOneMarkerPair :
    tmoOk (some 1#32) ∧ tmoOk none ∧ (idleState true [] 0#64).portOpen = true ∧
    (idleState true [] 0#64).st = .idle := by simp [tmoOk, idleState, State.reset]

theorem witness_ReadsAndActuatorsSendTheirParameter :
    tmoOk (some 1#32) ∧ tmoOk none ∧ (idleState true [] 0#64).portOpen = true ∧
    (idleState true [] 0#64).st = .idle := by simp [tmoOk, idleState, State.reset]

/-- A drop-check vend waits for its reply. -/
def callState : State := pendingState true [] (request false 3#32 0#64) 3#64 (.call (.channel .vendChk 3))

theorem witness_OkRepliesAreInterpreted :
    callState.st = .awaitingReply ∧ callState.p = some (request false 3#32 0#64) ∧
    callState.caller = .call (.channel .vendChk 3) ∧ 5 ≤ (callState.rxbuf ++ goodReply).length ∧
    classify ((callState.rxbuf ++ goodReply).take 5) (request false 3#32 0#64).allow =
      .ok (okParsed 0x00#8 0x00#8 0x5D#8) := by
  and_intros <;> rfl

theorem witness_FailedCallsReturnTheFailureUnchanged :
    callState.st = .awaitingReply ∧ callState.p = some (request false 3#32 0#64) ∧
    callState.caller = .call (.channel .vendChk 3) ∧
    (5 ≤ (callState.rxbuf ++ [0x00#8, 0x5D#8, 0x00#8, 0x00#8, 0x5E#8]).length ∧
      classify ((callState.rxbuf ++ [0x00#8, 0x5D#8, 0x00#8, 0x00#8, 0x5E#8]).take 5) (request false 3#32 0#64).allow =
        .fail (.badChecksum 0x5D#8 0x5E#8 [0x00#8, 0x5D#8, 0x00#8, 0x00#8, 0x5E#8])) ∧
    (callState.tmrArmed = true ∧
      (request false 3#32 0#64).tmo.toNat ≤ (callState.now - (request false 3#32 0#64).t0).toNat) := by
  and_intros <;> rfl

/-- A poll's last probe waits for its reply. -/
def probeState : State := pendingState true [] (request true 50#32 0#64) 50#64 (.poll lastProbe)

theorem witness_ProbesNeverReportAControllerError :
    AllowMatches (given probeState (.word (encode (.rxchunk [0x00#8, 0x5C#8, 0x53#8, 0x00#8, 0xAF#8])))) ∧
    PollsClean (given probeState (.word (encode (.rxchunk [0x00#8, 0x5C#8, 0x53#8, 0x00#8, 0xAF#8])))) ∧
    ∃ t, step (given probeState (.word (encode (.rxchunk [0x00#8, 0x5C#8, 0x53#8, 0x00#8, 0xAF#8])))) = .next t :=
  ⟨by simp [AllowMatches, given, probeState, pendingState, request],
    by simp [PollsClean, given, probeState, pendingState, State.reset, lastProbe], _, rfl⟩

theorem witness_PollClampsItsBoundAndProbesChannelOne :
    1 ≤ (1#32).toNat ∧ (idleState true [] 0#64).portOpen = true ∧ (idleState true [] 0#64).st = .idle := by decide

theorem witness_PollGoesOnAfterARefusedProbe :
    (0#32 : Millis) = 0#32 ∧ (1 ≤ (1#32).toNat ∧ (idleState false [] 0#64).portOpen = false) ∧
    (1 ≤ (1#32).toNat ∧ (hostState [] 0#64).portOpen = true ∧ (hostState [] 0#64).st = .awaitingReply) ∧
    (1 ≤ (1#32).toNat ∧ (idleState true [] 0#64).portOpen = true ∧ (idleState true [] 0#64).st = .idle) := by decide

theorem witness_AReturningProbeMakesOneEntry :
    probeState.st = .awaitingReply ∧ probeState.p = some (request true 50#32 0#64) ∧
    probeState.caller = .poll lastProbe ∧ (request true 50#32 0#64).allow = true ∧
    5 ≤ (probeState.rxbuf ++ goodReply).length ∧ probeState.tmrArmed = true ∧
    (request true 50#32 0#64).tmo.toNat ≤ (probeState.now - (request true 50#32 0#64).t0).toNat := by
  and_intros <;> rfl

/-- `s` with one poll in the list, whose wait began at 5, with its turn given. -/
def turnState (s : State) (p : PollCall) (wrOk : Bool) : State := { given s (.pollTurn 0 wrOk) with polls := [p] }

theorem witness_APollTurnWaitsForTheDelayThenProbes :
    (turnState (idleState true [] 14#64) (pausedPoll []) false).input = .pollTurn 0 false :: [] ∧
    (turnState (idleState true [] 14#64) (pausedPoll []) false).polls[0]? = some (pausedPoll []) ∧
    ((14#64 : Time) - (pausedPoll []).since).toNat < (pausedPoll []).delay.toNat ∧
    ((turnState (idleState true [] 15#64) (pausedPoll []) true).input = .pollTurn 0 true :: [] ∧
      (turnState (idleState true [] 15#64) (pausedPoll []) true).polls[0]? = some (pausedPoll []) ∧
      (pausedPoll []).delay.toNat ≤ ((15#64 : Time) - (pausedPoll []).since).toNat ∧
      1 ≤ (pausedPoll []).channel ∧ (pausedPoll []).channel ≤ 80 ∧ 1 ≤ (pausedPoll []).tmo.toNat ∧
      (turnState (idleState true [] 15#64) (pausedPoll []) true).portOpen = true ∧
      (turnState (idleState true [] 15#64) (pausedPoll []) true).st = .idle) := by decide

theorem witness_EveryPollReturnsOneEntryPerChannel :
    PollsConsistent (given probeState (.word (encode (.rxchunk goodReply)))) ∧
    ∃ t, step (given probeState (.word (encode (.rxchunk goodReply)))) = .next t ∧
      .polled [⟨1, true, .ok⟩, ⟨2, true, .ok⟩] ∈ t.trace :=
  ⟨⟨by simp [given, probeState, pendingState, State.reset], show lastProbe.Consistent by decide⟩, _, rfl, by decide⟩

theorem witness_ALaterRefusedProbeMakesAnEntryToo :
    let closed := turnState (idleState false [] 15#64) (pausedPoll []) true
    let busy := turnState (hostState [] 15#64) (pausedPoll []) true
    let unwritten := turnState (idleState true [] 15#64) (pausedPoll []) false
    let early := { pausedPoll [] with tmo := 0#32, channel := 1 }
    ((pausedPoll []).delay.toNat ≤ ((15#64 : Time) - (pausedPoll []).since).toNat ∧
      1 ≤ (pausedPoll []).channel ∧ (pausedPoll []).channel ≤ 80 ∧ 1 ≤ (pausedPoll []).tmo.toNat) ∧
    (closed.input = .pollTurn 0 true :: [] ∧ closed.polls[0]? = some (pausedPoll []) ∧ closed.portOpen = false) ∧
    (busy.input = .pollTurn 0 true :: [] ∧ busy.polls[0]? = some (pausedPoll []) ∧ busy.portOpen = true ∧
      busy.st = .awaitingReply) ∧
    (unwritten.input = .pollTurn 0 false :: [] ∧ unwritten.polls[0]? = some (pausedPoll []) ∧
      unwritten.portOpen = true ∧ unwritten.st = .idle) ∧
    (1 ≤ early.channel ∧ early.channel ≤ 80 ∧ early.tmo = 0#32 ∧
      early.delay.toNat ≤ ((15#64 : Time) - early.since).toNat) := by
  and_intros <;> first | rfl | decide

end Sys2Proof.Tests
end

/-! ### 00_scope.md: what the decoder yields (R7) and what one step does (R13) -/

namespace Sys2Proof

open Machine

/-! #### Operands of the port fit their width (R7, D24) -/

theorem fitsVal_iff (v : Int) : fitsVal v = true ↔ -(2 ^ 31) ≤ v ∧ v < 2 ^ 31 := by
  simp only [fitsVal, Bool.and_eq_true, decide_eq_true_eq]

/-- The signed number of four bytes fits VAL_W. -/
theorem fitsVal_readInt (b3 b2 b1 b0 : Byte) : fitsVal (readInt b3 b2 b1 b0) = true :=
  (fitsVal_iff _).mpr ⟨BitVec.le_toInt _, BitVec.toInt_lt⟩

/-- A byte read as a number fits VAL_W. -/
theorem fitsVal_byte (b : Byte) : fitsVal (b.toNat : Int) = true := by
  have := b.isLt
  rw [fitsVal_iff]
  omega

/-! #### What each operand reader yields -/

/-- A reader that goes on after another one succeeds only where both do. -/
theorem bind_eq_ok {α β : Type} {x : Except DecodeError α} {f : α → Except DecodeError β} {b : β}
    (h : x.bind f = .ok b) : ∃ a, x = .ok a ∧ f a = .ok b := by
  cases x with
  | error e => cases h
  | ok a => exact ⟨a, rfl, h⟩

theorem decodeNone_eq_ok {i j : Instr} {bs : List Byte} (h : decodeNone i bs = .ok j) : j = i := by
  unfold decodeNone at h
  split at h <;> cases h
  rfl

theorem decodeByte_eq_ok {k : Byte → Instr} {bs : List Byte} {i : Instr} (h : decodeByte k bs = .ok i) :
    ∃ x, i = k x := by
  unfold decodeByte at h
  split at h <;> cases h
  exact ⟨_, rfl⟩

theorem decodeFour_eq_ok {k : Byte → Byte → Byte → Byte → Instr} {bs : List Byte} {i : Instr}
    (h : decodeFour k bs = .ok i) : ∃ g st d a, i = k g st d a := by
  unfold decodeFour at h
  split at h <;> cases h
  exact ⟨_, _, _, _, rfl⟩

theorem decodeInt_eq_ok {k : Int → Instr} {bs : List Byte} {i : Instr} (h : decodeInt k bs = .ok i) :
    ∃ v, fitsVal v = true ∧ i = k v := by
  unfold decodeInt at h
  split at h <;> cases h
  exact ⟨_, fitsVal_readInt .., rfl⟩

theorem decodeTwoInts_eq_ok {k : Int → Int → Instr} {bs : List Byte} {i : Instr}
    (h : decodeTwoInts k bs = .ok i) : ∃ c v, fitsVal c = true ∧ fitsVal v = true ∧ i = k c v := by
  unfold decodeTwoInts at h
  split at h <;> cases h
  exact ⟨_, _, fitsVal_readInt .., fitsVal_readInt .., rfl⟩

theorem decodeDispatch_eq_ok {desc : Desc} {bs : List Byte} {i : Instr} (h : decodeDispatch desc bs = .ok i) :
    ∃ cmd sub tmo allow wrOk, fitsVal cmd = true ∧ fitsVal sub = true ∧
      i = .dispatch cmd sub tmo desc allow wrOk := by
  unfold decodeDispatch at h
  split at h
  · obtain ⟨allow, -, h⟩ := bind_eq_ok h
    obtain ⟨wrOk, -, h⟩ := bind_eq_ok h
    cases h
    exact ⟨_, _, _, allow, wrOk, fitsVal_readInt .., fitsVal_readInt .., rfl⟩
  · cases h

theorem decodeClassify_eq_ok {bs : List Byte} {i : Instr} (h : decodeClassify bs = .ok i) :
    ∃ frame allow, i = .classify frame allow := by
  unfold decodeClassify at h
  split at h
  · obtain ⟨allow, -, h⟩ := bind_eq_ok h
    cases h
    exact ⟨_, allow, rfl⟩
  · cases h

theorem decodePlainCall_eq_ok {k : Option Millis → Bool → Instr} {bs : List Byte} {i : Instr}
    (h : decodePlainCall k bs = .ok i) : ∃ tmo wrOk, i = k tmo wrOk := by
  unfold decodePlainCall at h
  split at h
  · obtain ⟨tmo, -, h⟩ := bind_eq_ok h
    obtain ⟨wrOk, -, h⟩ := bind_eq_ok h
    cases h
    exact ⟨tmo, wrOk, rfl⟩
  · cases h

theorem decodeIntCall_eq_ok {k : Int → Option Millis → Bool → Instr} {bs : List Byte} {i : Instr}
    (h : decodeIntCall k bs = .ok i) : ∃ v tmo wrOk, fitsVal v = true ∧ i = k v tmo wrOk := by
  unfold decodeIntCall at h
  split at h
  · obtain ⟨tmo, wrOk, rfl⟩ := decodePlainCall_eq_ok h
    exact ⟨_, tmo, wrOk, fitsVal_readInt .., rfl⟩
  · cases h

theorem decodeToggleCall_eq_ok {k : Bool → Option Millis → Bool → Instr} {bs : List Byte} {i : Instr}
    (h : decodeToggleCall k bs = .ok i) : ∃ on tmo wrOk, i = k on tmo wrOk := by
  unfold decodeToggleCall at h
  split at h
  · obtain ⟨on, -, h⟩ := bind_eq_ok h
    exact ⟨on, decodePlainCall_eq_ok h⟩
  · cases h

theorem decodePoll_eq_ok {bs : List Byte} {i : Instr} (h : decodePoll bs = .ok i) :
    ∃ m delay tmo wrOk, fitsVal m = true ∧ i = .poll m delay tmo wrOk := by
  unfold decodePoll at h
  split at h
  · obtain ⟨wrOk, -, h⟩ := bind_eq_ok h
    cases h
    exact ⟨_, _, _, wrOk, fitsVal_readInt .., rfl⟩
  · cases h

/-! #### Every decoded operation is well-formed -/

/-- An operation without a number is well-formed whatever its operands are; of the others the reader of the operands has made the
numbers fit. The arms of `decodeOp`, counted in its order, are grouped by the form of their operands. -/
theorem wellFormed_of_decodeOp {opn : Nat} {bs : List Byte} {i : Instr} (h : decodeOp opn bs = .ok i) :
    wellFormed i = true := by
  unfold decodeOp at h
  split at h
  -- no operand
  case h_1 | h_2 | h_3 | h_6 | h_7 => obtain rfl := decodeNone_eq_ok h; rfl
  -- a chunk, which the decoder itself measures
  case h_5 =>
    split at h <;> cases h
    assumption
  -- one number; two numbers
  case h_8 => obtain ⟨v, hv, rfl⟩ := decodeInt_eq_ok h; exact hv
  case h_10 =>
    obtain ⟨c, v, hc, hv, rfl⟩ := decodeTwoInts_eq_ok h
    exact Bool.and_eq_true_iff.mpr ⟨hc, hv⟩
  -- bytes and flags, which have their widths in their types
  case h_9 | h_15 => obtain ⟨x, rfl⟩ := decodeByte_eq_ok h; rfl
  case h_11 | h_14 => cases h; rfl
  case h_12 | h_13 => obtain ⟨g, st, d, a, rfl⟩ := decodeFour_eq_ok h; rfl
  case h_16 => obtain ⟨frame, allow, rfl⟩ := decodeClassify_eq_ok h; rfl
  -- the catalog operations: with a channel or a number, without an argument, the toggles
  case h_17 | h_18 | h_25 | h_26 | h_27 | h_28 | h_29 | h_30 | h_31 | h_32 | h_33 | h_34 | h_35 | h_40 =>
    obtain ⟨v, tmo, wrOk, hv, rfl⟩ := decodeIntCall_eq_ok h
    exact hv
  case h_19 | h_20 | h_21 | h_22 | h_23 | h_24 | h_41 | h_42 | h_43 | h_44 =>
    obtain ⟨tmo, wrOk, rfl⟩ := decodePlainCall_eq_ok h
    rfl
  case h_36 | h_37 | h_38 | h_39 => obtain ⟨on, tmo, wrOk, rfl⟩ := decodeToggleCall_eq_ok h; rfl
  -- POLL
  case h_45 => obtain ⟨m, delay, tmo, wrOk, hm, rfl⟩ := decodePoll_eq_ok h; exact hm
  -- DISPATCH without its description, and the numbers that name no operation
  case h_4 | h_46 => cases h

/-- A request frame is the ENCREQ of two of its bytes (30_encoding.md R60). -/
theorem wellFormed_of_decodeRequestFrame {bs : List Byte} {i : Instr} (h : decodeRequestFrame bs = .ok i) :
    wellFormed i = true := by
  unfold decodeRequestFrame at h
  split at h
  · split at h <;> cases h
    simp only [wellFormed, fitsVal_byte, Bool.and_self]
  · cases h

/-- A response frame carries no number, and its RSP_LEN bytes fit in one chunk (30_encoding.md R61). -/
theorem wellFormed_of_decodeResponseFrame {bs : List Byte} {i : Instr} (h : decodeResponseFrame bs = .ok i) :
    wellFormed i = true := by
  unfold decodeResponseFrame at h
  split at h
  · split at h
    · cases h; rfl
    · split at h <;> cases h <;> rfl
  · cases h

/-- Only DISPATCH is decoded beside a description (30_encoding.md R73). -/
theorem wellFormed_of_decodeDescribed {desc : Desc} {opn : Nat} {bs : List Byte} {i : Instr}
    (h : decodeDescribed desc opn bs = .ok i) : wellFormed i = true := by
  unfold decodeDescribed at h
  split at h
  · obtain ⟨cmd, sub, tmo, allow, wrOk, hcmd, hsub, rfl⟩ := decodeDispatch_eq_ok h
    exact Bool.and_eq_true_iff.mpr ⟨hcmd, hsub⟩
  · cases h

/-- Settles O3, format by format. -/
theorem decodedOperationsAreWellFormed : Obligations.DecodedOperationsAreWellFormed := by
  rintro ⟨format, bytes, desc⟩ i h
  cases format with
  | op =>
    cases bytes with
    | nil => cases h
    | cons o rest =>
      cases desc with
      | none => exact wellFormed_of_decodeOp h
      | some d => exact wellFormed_of_decodeDescribed h
  | req =>
    cases desc with
    | none => exact wellFormed_of_decodeRequestFrame h
    | some d => cases h
  | rsp =>
    cases desc with
    | none => exact wellFormed_of_decodeResponseFrame h
    | some d => cases h
  | errd =>
    cases desc with
    | none =>
      obtain ⟨x, rfl⟩ := decodeByte_eq_ok h
      rfl
    | some d => cases h

end Sys2Proof

namespace Sys2Proof.Machine

/-! #### The step by the head of the event list (R13, assumption log 4) -/

/-- With no event the block waits (10_state.md R30). -/
theorem step_of_no_event {s : State} (hin : s.input = []) : step s = .next s := by
  simp only [step, hin]

/-- A turn leaves the list and runs the poller (44_channel_poller.md R202). -/
theorem step_of_pollTurn {s : State} {index : Nat} {wrOk : Bool} {rest : List InputEvent}
    (hin : s.input = .pollTurn index wrOk :: rest) :
    step s = .next (State.pollTurn { s with input := rest } index wrOk) := by
  simp only [step, hin]

/-- A word that is no encoding of an operation is refused by name. -/
theorem step_of_undecodable_word {s : State} {w : PortWord} {e : DecodeError} {rest : List InputEvent}
    (hin : s.input = .word w :: rest) (hd : decode w = .error e) : step s = .refused (.undecodable e) := by
  simp only [step, hin, hd]

/-- A word leaves the list and its operation is run. -/
theorem step_of_decoded_word {s : State} {w : PortWord} {i : Instr} {rest : List InputEvent}
    (hin : s.input = .word w :: rest) (hd : decode w = .ok i) : step s = exec i { s with input := rest } := by
  simp only [step, hin, hd]

/-- Settles O5. -/
theorem stepRunsTheDecodedOperation : Obligations.StepRunsTheDecodedOperation :=
  fun _ _ _ _ hin hd => step_of_decoded_word hin hd

/-- Settles O6, one equation of `step` per clause. -/
theorem stepWithoutAnOperation : Obligations.StepWithoutAnOperation :=
  ⟨fun _ hin => step_of_no_event hin, fun _ _ _ _ hin hd => step_of_undecodable_word hin hd,
    fun _ _ _ _ hin => step_of_pollTurn hin⟩

end Sys2Proof.Machine

/-! ### 10_state.md: the reset state (R30), the invariants (R28), and what no step reads (R26, R29) -/

namespace Sys2Proof.Machine

/-! #### The reset state (R30) -/

/-- Settles O30. -/
theorem resetStateHasTheValuesOfTheSpec : Obligations.ResetStateHasTheValuesOfTheSpec :=
  ⟨rfl, rfl, rfl, rfl, rfl⟩

/-- A state with no request, no waiting caller and the timer off is coherent. -/
theorem coherent_of_no_request {s : State} (hst : s.st = .idle) (hp : s.p = none) (htmr : s.tmrArmed = false)
    (hc : s.caller = .host) : Coherent s := by
  simp [Coherent, hst, hp, htmr, hc]

/-- Settles O31: at reset there is no request, no waiting caller and no poll, so each invariant speaks of nothing but Idle. -/
theorem resetStateSatisfiesTheInvariants : Obligations.ResetStateSatisfiesTheInvariants := by
  have hcoherent : Coherent State.reset := coherent_of_no_request rfl rfl rfl rfl
  have hontime : OnTime State.reset := fun _ hr => nomatch hr
  have hpolls : PollsConsistent State.reset := ⟨fun _ hp => (nomatch hp), trivial⟩
  have hclean : PollsClean State.reset := ⟨fun _ hp => (nomatch hp), trivial⟩
  exact ⟨hcoherent, hontime, hpolls, trivial, hclean⟩

/-! #### I1 and I2 under each operation of the state (R28) -/

/-- I1 and I2 do not speak of the events not yet processed. -/
theorem Coherent.with_input {s : State} (h : Coherent s) (events : List InputEvent) :
    Coherent { s with input := events } := h

/-- I1 and I2 do not speak of the paused polls and the outputs. -/
theorem Coherent.with_polls_trace {s : State} (h : Coherent s) (polls : List PollCall) (trace : List Output) :
    Coherent { s with polls := polls, trace := trace } := h

/-- A resumed caller touches neither the phase, nor the request, nor the timer. -/
theorem Coherent.resume {s : State} (h : Coherent s) (c : Caller) (r : Result) : Coherent (s.resume c r) := by
  obtain ⟨polls, outs, heq⟩ := s.resume_frame c r
  rw [heq]
  exact h.with_polls_trace polls _

/-- The end of a request makes any state coherent. -/
theorem coherent_endRequest (s : State) : Coherent s.endRequest := coherent_of_no_request rfl rfl rfl rfl

/-- The completion of a request makes any state coherent, whatever is left in the buffer. -/
theorem coherent_finished (s : State) (rx : List Byte) (outs : List Output) : Coherent (finished s rx outs) :=
  coherent_of_no_request rfl rfl rfl rfl

/-- An accepted request is coherent because DISPATCH refuses a timeout of 0 (42_correlator.md R122). -/
theorem coherent_accepted (s : State) (c : Caller) (desc : Desc) (allow : Bool) {tmo : Millis} (frame : List Byte)
    (htmo : 1 ≤ tmo.toNat) : Coherent (accepted s c desc allow tmo frame) := by
  simp [Coherent, htmo]

/-- A rejection leaves the request that is pending, if one is, alone. -/
theorem Coherent.refuse {s : State} (h : Coherent s) (c : Caller) (f : Failure) : Coherent (s.refuse c f) := by
  rw [State.refuse_eq]
  exact (h.with_polls_trace s.polls _).resume c (.fail f)

theorem Coherent.dispatch {s : State} (h : Coherent s) (c : Caller) (cmd sub : Int) (tmo : Millis) (desc : Desc)
    (allow wrOk : Bool) : Coherent (s.dispatch c cmd sub tmo desc allow wrOk) := by
  obtain ⟨-, heq⟩ | ⟨-, -, heq⟩ | ⟨-, -, -, heq⟩ | ⟨-, -, -, -, heq⟩ | ⟨htmo, -, -, -, heq⟩ :=
    s.dispatch_cases c cmd sub tmo desc allow wrOk <;> rw [heq]
  · exact h.refuse c _
  · exact h.refuse c _
  · exact h.refuse c _
  · exact (coherent_endRequest s).refuse c _
  · exact coherent_accepted s c desc allow _ htmo

theorem Coherent.issue {s : State} (h : Coherent s) (w : Caller) (c : Call) (tmo : Millis) (wrOk : Bool) :
    Coherent (s.issue w c tmo wrOk) := by
  obtain ⟨f, -, heq⟩ | ⟨-, heq⟩ := s.issue_cases w c tmo wrOk <;> rw [heq]
  · exact h.resume w (.fail f)
  · exact h.dispatch w ..

theorem Coherent.pollTurn {s : State} (h : Coherent s) (index : Nat) (wrOk : Bool) :
    Coherent (s.pollTurn index wrOk) := by
  obtain heq | ⟨p, -, -, heq⟩ := s.pollTurn_cases index wrOk <;> rw [heq]
  · exact h
  · exact (h.with_polls_trace _ s.trace).issue (.poll p) ..

theorem Coherent.after_receive {s t : State} {chunk : List Byte} (h : Coherent s) (hs : s.receive chunk = .next t) :
    Coherent t := by
  obtain ⟨-, -, heq⟩ | ⟨-, -, heq⟩ | ⟨-, -, heq⟩ | ⟨-, -, -, heq⟩ | ⟨r, -, -, -, heq⟩ := s.receive_cases chunk <;>
    rw [heq] at hs <;> cases hs
  · exact h
  · exact h
  · exact h
  · exact (coherent_finished s _ _).resume s.caller _

theorem coherent_after_tmrfire {s t : State} (hs : execTmrfire s = .next t) : Coherent t := by
  obtain heq | ⟨-, -, heq⟩ | ⟨r, -, -, -, -, heq⟩ := execTmrfire_cases s <;> rw [heq] at hs <;> cases hs
  exact (coherent_finished s _ _).resume s.caller _

theorem Coherent.after_tick {s t : State} (h : Coherent s) (hs : execTick s = .next t) : Coherent t := by
  obtain ⟨-, -, heq⟩ | ⟨-, heq⟩ | ⟨-, heq⟩ := execTick_cases s <;> rw [heq] at hs <;> cases hs
  exact h

theorem Coherent.after_exec {s t : State} {i : Instr} (h : Coherent s) (hs : exec i s = .next t) : Coherent t := by
  obtain ⟨v, heq⟩ | ⟨-, heq⟩ | ⟨b, heq⟩ | ⟨-, heq⟩ | ⟨-, heq⟩ | ⟨chunk, -, heq⟩ |
    ⟨cmd, sub, tmo, desc, allow, wrOk, -, heq⟩ | ⟨c, tmo, wrOk, heq⟩ | ⟨m, delay, tmo, wrOk, -, heq⟩ :=
    exec_cases i s <;> rw [heq] at hs
  · cases hs; exact h
  · cases hs; exact coherent_endRequest s
  · cases hs; exact h
  · exact coherent_after_tmrfire hs
  · exact h.after_tick hs
  · exact h.after_receive hs
  · cases hs; exact h.dispatch .host ..
  · cases hs; exact h.issue (.call c) ..
  · cases hs; exact h.issue (.poll _) ..

/-- Settles O32, by the kinds of step. -/
theorem everyStepKeepsTheStateCoherent : Obligations.EveryStepKeepsTheStateCoherent := by
  intro s t h hs
  obtain ⟨-, heq⟩ | ⟨index, wrOk, rest, -, heq⟩ | ⟨w, e, rest, -, -, heq⟩ | ⟨w, i, rest, -, -, heq⟩ :=
    step_cases s <;> rw [heq] at hs
  · cases hs; exact h
  · cases hs; exact (h.with_input rest).pollTurn index wrOk
  · cases hs
  · exact (h.with_input rest).after_exec hs

/-! #### No fault in a coherent state (R24, R30) -/

/-- I2 in the form the faults ask for: while a reply is awaited `P` has a value. -/
theorem Coherent.p_ne_none {s : State} (h : Coherent s) (hst : s.st = .awaitingReply) : s.p ≠ none := by
  obtain ⟨-, hp, -, -⟩ := h
  exact Option.isSome_iff_ne_none.mp (hp.mpr hst)

theorem Coherent.receive_ne_fault {s : State} (h : Coherent s) (chunk : List Byte) (f : Fault) :
    s.receive chunk ≠ .fault f := by
  obtain ⟨-, -, heq⟩ | ⟨-, -, heq⟩ | ⟨-, -, heq⟩ | ⟨hst, -, hp, -⟩ | ⟨r, -, -, -, heq⟩ := s.receive_cases chunk
  · rw [heq]; exact nofun
  · rw [heq]; exact nofun
  · rw [heq]; exact nofun
  · exact absurd hp (h.p_ne_none hst)
  · rw [heq]; exact nofun

theorem Coherent.execTmrfire_ne_fault {s : State} (h : Coherent s) (f : Fault) : execTmrfire s ≠ .fault f := by
  obtain heq | ⟨hst, hp, -⟩ | ⟨r, -, -, -, -, heq⟩ := execTmrfire_cases s
  · rw [heq]; exact nofun
  · exact absurd hp (h.p_ne_none hst)
  · rw [heq]; exact nofun

theorem Coherent.execTick_ne_fault {s : State} (h : Coherent s) (f : Fault) : execTick s ≠ .fault f := by
  obtain ⟨hst, hp, -⟩ | ⟨-, heq⟩ | ⟨-, heq⟩ := execTick_cases s
  · exact absurd hp (h.p_ne_none hst)
  · rw [heq]; exact nofun
  · rw [heq]; exact nofun

theorem Coherent.exec_ne_fault {s : State} (h : Coherent s) (i : Instr) (f : Fault) : exec i s ≠ .fault f := by
  obtain ⟨v, heq⟩ | ⟨-, heq⟩ | ⟨b, heq⟩ | ⟨-, heq⟩ | ⟨-, heq⟩ | ⟨chunk, -, heq⟩ |
    ⟨cmd, sub, tmo, desc, allow, wrOk, -, heq⟩ | ⟨c, tmo, wrOk, heq⟩ | ⟨m, delay, tmo, wrOk, -, heq⟩ :=
    exec_cases i s <;> rw [heq]
  case inr.inr.inr.inl => exact h.execTmrfire_ne_fault f
  case inr.inr.inr.inr.inl => exact h.execTick_ne_fault f
  case inr.inr.inr.inr.inr.inl => exact h.receive_ne_fault chunk f
  all_goals exact nofun

/-- Settles O34: a wait, a poll's turn and an undecodable word never fault, and no operation does in a coherent state. -/
theorem coherentStatesNeverFault : Obligations.CoherentStatesNeverFault := by
  intro s f h
  obtain ⟨-, heq⟩ | ⟨index, wrOk, rest, -, heq⟩ | ⟨w, e, rest, -, -, heq⟩ | ⟨w, i, rest, -, -, heq⟩ :=
    step_cases s <;> rw [heq]
  case inr.inr.inr => exact (h.with_input rest).exec_ne_fault i f
  all_goals exact nofun

/-! #### I3: what is buffered while a reply is awaited (R28) -/

@[simp] theorem State.resume_st (s : State) (c : Caller) (r : Result) : (s.resume c r).st = s.st := by
  obtain ⟨_, _, heq⟩ := s.resume_frame c r
  rw [heq]

@[simp] theorem State.resume_rxbuf (s : State) (c : Caller) (r : Result) : (s.resume c r).rxbuf = s.rxbuf := by
  obtain ⟨_, _, heq⟩ := s.resume_frame c r
  rw [heq]

/-- DISPATCH, accepted or not, leaves the buffer as it is: an old remainder stays (70_reset_and_hazards.md R273). -/
@[simp] theorem State.dispatch_rxbuf (s : State) (c : Caller) (cmd sub : Int) (tmo : Millis) (desc : Desc)
    (allow wrOk : Bool) : (s.dispatch c cmd sub tmo desc allow wrOk).rxbuf = s.rxbuf := by
  obtain ⟨-, heq⟩ | ⟨-, -, heq⟩ | ⟨-, -, -, heq⟩ | ⟨-, -, -, -, heq⟩ | ⟨-, -, -, -, heq⟩ :=
    s.dispatch_cases c cmd sub tmo desc allow wrOk <;> simp [heq, State.refuse_eq]

@[simp] theorem State.issue_rxbuf (s : State) (w : Caller) (c : Call) (tmo : Millis) (wrOk : Bool) :
    (s.issue w c tmo wrOk).rxbuf = s.rxbuf := by
  obtain ⟨f, -, heq⟩ | ⟨-, heq⟩ := s.issue_cases w c tmo wrOk <;> simp [heq]

@[simp] theorem State.pollTurn_rxbuf (s : State) (index : Nat) (wrOk : Bool) :
    (s.pollTurn index wrOk).rxbuf = s.rxbuf := by
  obtain heq | ⟨p, -, -, heq⟩ := s.pollTurn_cases index wrOk <;> simp [heq, State.probe]

/-- A chunk that leaves the request pending leaves fewer bytes than a frame has (42_correlator.md R124). -/
theorem rxbuf_le_four_of_receive {s t : State} {chunk : List Byte} (hs : s.receive chunk = .next t)
    (hst : t.st = .awaitingReply) : t.rxbuf.length ≤ 4 := by
  obtain ⟨hidle, -, heq⟩ | ⟨hidle, -, heq⟩ | ⟨-, hlen, heq⟩ | ⟨-, -, -, heq⟩ | ⟨r, -, -, -, heq⟩ :=
    s.receive_cases chunk <;> rw [heq] at hs <;> cases hs
  · simp [hidle] at hst
  · simp [hidle] at hst
  · rw [State.memAppend_rxbuf]; omega
  · simp at hst

/-- A fired timer leaves no request pending. -/
theorem st_idle_of_execTmrfire {s t : State} (hs : execTmrfire s = .next t) : t.st = .idle := by
  obtain heq | ⟨-, -, heq⟩ | ⟨r, -, -, -, -, heq⟩ := execTmrfire_cases s <;> rw [heq] at hs <;> cases hs
  simp

/-- While a reply is still awaited, an operation has left the buffer as it was or short of a frame. -/
theorem rxbuf_of_exec {s t : State} {i : Instr} (hs : exec i s = .next t) (hst : t.st = .awaitingReply) :
    t.rxbuf = s.rxbuf ∨ t.rxbuf.length ≤ 4 := by
  obtain ⟨v, heq⟩ | ⟨-, heq⟩ | ⟨b, heq⟩ | ⟨-, heq⟩ | ⟨-, heq⟩ | ⟨chunk, -, heq⟩ |
    ⟨cmd, sub, tmo, desc, allow, wrOk, -, heq⟩ | ⟨c, tmo, wrOk, heq⟩ | ⟨m, delay, tmo, wrOk, -, heq⟩ :=
    exec_cases i s <;> rw [heq] at hs
  · cases hs; exact .inl rfl
  · cases hs; exact .inr (Nat.zero_le 4)
  · cases hs; exact .inl rfl
  · rw [st_idle_of_execTmrfire hs] at hst; cases hst
  · obtain ⟨-, -, heq⟩ | ⟨-, heq⟩ | ⟨-, heq⟩ := execTick_cases s <;> rw [heq] at hs <;> cases hs
    exact .inl rfl
  · exact .inr (rxbuf_le_four_of_receive hs hst)
  · cases hs; exact .inl (s.dispatch_rxbuf ..)
  · cases hs; exact .inl (s.issue_rxbuf ..)
  · cases hs; exact .inl (s.issue_rxbuf ..)

/-- Settles O33. -/
theorem aFullFrameIsBufferedOnlyByARemainder : Obligations.AFullFrameIsBufferedOnlyByARemainder := by
  refine ⟨fun s t chunk hs hst => rxbuf_le_four_of_receive hs hst, fun s t hs hst hlen => ?_⟩
  obtain ⟨-, heq⟩ | ⟨index, wrOk, rest, -, heq⟩ | ⟨w, e, rest, -, -, heq⟩ | ⟨w, i, rest, -, -, heq⟩ :=
    step_cases s <;> rw [heq] at hs
  · cases hs; rfl
  · cases hs; rw [State.pollTurn_rxbuf]
  · cases hs
  · obtain hkept | hshort := rxbuf_of_exec hs hst
    · exact hkept
    · omega

/-! #### The same run after other outputs and on another clock (R26, R29 item e) -/

/-- `s` with `before` in front of its trace and every time in it `d` later: the two transformations of Safety.lean in one, so that
each operation is shown to commute with both at once. -/
def State.moved (before : List Output) (d : Time) (s : State) : State := (s.shiftTime d).traceAfter before

section
variable (before : List Output) (d : Time) (s : State)

/-- With no earlier outputs only the clock is moved. -/
theorem State.moved_nil : State.moved [] d = State.shiftTime d := rfl

theorem PollCall.shift_zero (p : PollCall) : p.shift 0#64 = p := by simp [PollCall.shift]

theorem Caller.shift_zero (c : Caller) : c.shift 0#64 = c := by
  cases c <;> simp [Caller.shift, PollCall.shift_zero]

/-- On the same clock only the trace is moved. -/
theorem State.moved_zero : State.moved before 0#64 = State.traceAfter before := by
  have hpolls : PollCall.shift 0#64 = id := funext PollCall.shift_zero
  funext s
  simp [State.moved, State.shiftTime, Caller.shift_zero, hpolls]

@[simp] theorem State.moved_st : (s.moved before d).st = s.st := rfl
@[simp] theorem State.moved_p : (s.moved before d).p = s.p.map (fun r => { r with t0 := r.t0 + d }) := rfl
@[simp] theorem State.moved_now : (s.moved before d).now = s.now + d := rfl
@[simp] theorem State.moved_caller : (s.moved before d).caller = s.caller.shift d := rfl
@[simp] theorem State.moved_polls : (s.moved before d).polls = s.polls.map (PollCall.shift d) := rfl

@[simp] theorem mapNext_next (f : State → State) : mapNext f (.next s) = .next (f s) := rfl
@[simp] theorem mapNext_fault (f : State → State) (r : Fault) : mapNext f (.fault r) = .fault r := rfl
@[simp] theorem mapNext_refused (f : State → State) (r : Refusal) : mapNext f (.refused r) = .refused r := rfl

/-! Times are only compared by their difference. -/

@[simp] theorem elapsedSince_shift (t0 now : Time) : elapsedSince (t0 + d) (now + d) = elapsedSince t0 now :=
  add_sub_add_right_eq_sub now t0 d

@[simp] theorem requestDue_shift (r : Pending) (now : Time) :
    requestDue { r with t0 := r.t0 + d } (now + d) = requestDue r now := by
  simp [requestDue]

@[simp] theorem pollReady_shift (p : PollCall) (now : Time) : pollReady (p.shift d) (now + d) = pollReady p now := by
  simp [pollReady, PollCall.shift]

@[simp] theorem deadlineDue_moved : deadlineDue (s.moved before d) = deadlineDue s := by
  unfold deadlineDue
  cases hp : s.p with
  | none => simp only [State.moved_p, hp, Option.map_none, Bool.and_false]
  | some r =>
    simp only [State.moved_p, hp, Option.map_some, State.moved_now, requestDue_shift]
    rfl

/-! Each operation of the state commutes with the move: it reads no output, and no time but by a difference. -/

theorem State.moved_emit (o : Output) : (s.emit o).moved before d = (s.moved before d).emit o := by
  simp [State.emit, State.moved, State.traceAfter, State.shiftTime]

theorem State.moved_memAppend (bs : List Byte) : (s.memAppend bs).moved before d = (s.moved before d).memAppend bs := rfl

theorem State.moved_memDrop (n : Nat) : (s.memDrop n).moved before d = (s.moved before d).memDrop n := rfl

theorem State.moved_memClear : s.memClear.moved before d = (s.moved before d).memClear := rfl

theorem State.moved_endRequest : s.endRequest.moved before d = (s.moved before d).endRequest := rfl

theorem State.moved_startRequest (c : Caller) (desc : Desc) (allow : Bool) (tmo : Millis) :
    (s.startRequest c desc allow tmo).moved before d = (s.moved before d).startRequest (c.shift d) desc allow tmo := rfl

theorem State.moved_probeReturned (p : PollCall) (r : Result) :
    (s.probeReturned p r).moved before d = (s.moved before d).probeReturned (p.shift d) r := by
  unfold State.probeReturned
  by_cases hlast : p.bound ≤ p.channel
  · have hlast' : (p.shift d).bound ≤ (p.shift d).channel := hlast
    rw [if_pos hlast, if_pos hlast', State.moved_emit]
    rfl
  · have hlast' : ¬ (p.shift d).bound ≤ (p.shift d).channel := hlast
    rw [if_neg hlast, if_neg hlast']
    simp [State.moved, State.traceAfter, State.shiftTime, PollCall.shift]

theorem State.moved_resume (c : Caller) (r : Result) :
    (s.resume c r).moved before d = (s.moved before d).resume (c.shift d) r := by
  cases c with
  | host => rfl
  | call k => exact State.moved_emit ..
  | poll p => exact State.moved_probeReturned ..

theorem State.moved_complete (r : Result) : (s.complete r).moved before d = (s.moved before d).complete r := by
  simp only [State.complete, State.moved_resume, State.moved_emit, State.moved_endRequest, State.moved_caller]

theorem State.moved_refuse (c : Caller) (f : Failure) :
    (s.refuse c f).moved before d = (s.moved before d).refuse (c.shift d) f := by
  simp only [State.refuse, State.moved_resume, State.moved_emit]

theorem State.moved_dispatch (c : Caller) (cmd sub : Int) (tmo : Millis) (desc : Desc) (allow wrOk : Bool) :
    (s.dispatch c cmd sub tmo desc allow wrOk).moved before d =
      (s.moved before d).dispatch (c.shift d) cmd sub tmo desc allow wrOk := by
  simp only [State.dispatch, apply_ite (State.moved before d), State.moved_refuse, State.moved_endRequest,
    State.moved_startRequest, State.moved_emit]
  rfl

theorem State.moved_issue (w : Caller) (c : Call) (tmo : Millis) (wrOk : Bool) :
    (s.issue w c tmo wrOk).moved before d = (s.moved before d).issue (w.shift d) c tmo wrOk := by
  unfold State.issue
  cases validate c tmo with
  | some f => exact State.moved_resume ..
  | none => exact State.moved_dispatch ..

theorem State.moved_invoke (c : Call) (tmo : Option Millis) (wrOk : Bool) :
    (s.invoke c tmo wrOk).moved before d = (s.moved before d).invoke c tmo wrOk :=
  State.moved_issue ..

theorem State.moved_probe (p : PollCall) (wrOk : Bool) :
    (s.probe p wrOk).moved before d = (s.moved before d).probe (p.shift d) wrOk :=
  State.moved_issue ..

theorem State.moved_erasePoll (index : Nat) :
    State.moved before d { s with polls := s.polls.eraseIdx index } =
      { s.moved before d with polls := (s.polls.map (PollCall.shift d)).eraseIdx index } := by
  simp [State.moved, State.traceAfter, State.shiftTime, List.eraseIdx_map]

theorem State.moved_pollTurn (index : Nat) (wrOk : Bool) :
    (s.pollTurn index wrOk).moved before d = (s.moved before d).pollTurn index wrOk := by
  unfold State.pollTurn
  rw [State.moved_polls, List.getElem?_map, State.moved_now]
  cases s.polls[index]? with
  | none => rfl
  | some p =>
    simp only [Option.map_some, pollReady_shift, apply_ite (State.moved before d), State.moved_probe,
      State.moved_erasePoll]
    rfl

theorem State.moved_receive (chunk : List Byte) :
    mapNext (State.moved before d) (s.receive chunk) = (s.moved before d).receive chunk := by
  unfold State.receive
  rw [State.moved_st]
  cases s.st with
  | idle => simp only [mapNext_next, apply_ite (State.moved before d), State.moved_emit]
  | awaitingReply =>
    by_cases hshort : (s.memAppend chunk).rxbuf.length < Config.rspLen
    · have hshort' : ((s.moved before d).memAppend chunk).rxbuf.length < Config.rspLen := hshort
      simp only [if_pos hshort, if_pos hshort', mapNext_next, State.moved_memAppend]
    · have hshort' : ¬ ((s.moved before d).memAppend chunk).rxbuf.length < Config.rspLen := hshort
      simp only [if_neg hshort, if_neg hshort', State.moved_p]
      cases s.p with
      | none => rfl
      | some r =>
        simp only [Option.map_some, mapNext_next, State.moved_complete, State.moved_memDrop, State.moved_memAppend]
        rfl

theorem mapNext_execTmrfire :
    mapNext (State.moved before d) (execTmrfire s) = execTmrfire (s.moved before d) := by
  unfold execTmrfire
  by_cases harmed : s.st = .awaitingReply ∧ s.tmrArmed = true
  · have harmed' : (s.moved before d).st = .awaitingReply ∧ (s.moved before d).tmrArmed = true := harmed
    rw [if_pos harmed, if_pos harmed', State.moved_p, State.moved_now]
    cases s.p with
    | none => rfl
    | some r =>
      simp only [Option.map_some, requestDue_shift, elapsedSince_shift, apply_ite (mapNext (State.moved before d)),
        mapNext_next, mapNext_refused, State.moved_complete, State.moved_memClear]
  · have harmed' : ¬ ((s.moved before d).st = .awaitingReply ∧ (s.moved before d).tmrArmed = true) := harmed
    rw [if_neg harmed, if_neg harmed']
    rfl

/-- The next millisecond of the moved clock is the moved next millisecond. -/
theorem State.moved_tick :
    State.moved before d { s with now := s.now + 1#64 } = { s.moved before d with now := s.now + d + 1#64 } := by
  simp [State.moved, State.traceAfter, State.shiftTime, add_right_comm]

theorem mapNext_execTick : mapNext (State.moved before d) (execTick s) = execTick (s.moved before d) := by
  have hnone : (s.moved before d).p = none ↔ s.p = none := Option.map_eq_none_iff
  simp only [execTick, apply_ite (mapNext (State.moved before d)), mapNext_next, mapNext_fault, mapNext_refused,
    State.moved_tick, deadlineDue_moved, hnone]
  rfl

theorem mapNext_execPoll (m : Int) (delay tmo : Millis) (wrOk : Bool) :
    mapNext (State.moved before d) (execPoll m delay tmo wrOk s) = execPoll m delay tmo wrOk (s.moved before d) :=
  congrArg Host.Outcome.next (State.moved_probe ..)

/-- Every operation does the same after any earlier outputs and on any clock. -/
theorem mapNext_exec (i : Instr) : mapNext (State.moved before d) (exec i s) = exec i (s.moved before d) := by
  cases i
  case reset | portOpen | portClose => rfl
  case dispatch => exact congrArg Host.Outcome.next (State.moved_dispatch ..)
  case rxchunk | rspOk | rspError => exact State.moved_receive ..
  case tmrfire => exact mapNext_execTmrfire ..
  case tick => exact mapNext_execTick ..
  case poll => exact mapNext_execPoll ..
  case mask8 | compl | encreq | chkreq | csum | encrsp | decrsp | errdec | classify =>
    exact congrArg Host.Outcome.next (State.moved_emit ..)
  -- the 28 catalog operations
  all_goals exact congrArg Host.Outcome.next (State.moved_invoke ..)

/-- Every step does the same after any earlier outputs and on any clock. -/
theorem mapNext_step : mapNext (State.moved before d) (step s) = step (s.moved before d) := by
  obtain ⟨hin, heq⟩ | ⟨index, wrOk, rest, hin, heq⟩ | ⟨w, e, rest, hin, hd, heq⟩ | ⟨w, i, rest, hin, hd, heq⟩ :=
    step_cases s <;> rw [heq]
  · rw [step_of_no_event (s := s.moved before d) hin]
    rfl
  · rw [step_of_pollTurn (s := s.moved before d) hin]
    exact congrArg Host.Outcome.next (State.moved_pollTurn ..)
  · rw [step_of_undecodable_word (s := s.moved before d) hin hd]
    rfl
  · rw [step_of_decoded_word (s := s.moved before d) hin hd]
    exact mapNext_exec ..

end

/-- Settles O40: the move on the same clock. -/
theorem outputsAreNeverReadBack : Obligations.OutputsAreNeverReadBack := by
  intro before s
  rw [← State.moved_zero, mapNext_step]

/-- Settles O41: the move with no earlier outputs. -/
theorem onlyTimeDifferencesMatter : Obligations.OnlyTimeDifferencesMatter := by
  intro d s
  rw [← State.moved_nil, mapNext_step]

end Sys2Proof.Machine

/-! ### 30_encoding.md: a word and its operation (R60 to R63, R72, R73; layout of operands: assumption log 1) -/

namespace Sys2Proof

open Machine

/-! #### Operand bytes written and read back -/

/-- The bytes of a word put together from four bytes are those bytes. -/
theorem bytesOfWord_wordOfBytes (b3 b2 b1 b0 : Byte) : bytesOfWord (wordOfBytes b3 b2 b1 b0) = [b3, b2, b1, b0] := by
  have h3 := b3.isLt
  have h2 := b2.isLt
  have h1 := b1.isLt
  have h0 := b0.isLt
  simp only [bytesOfWord, List.cons.injEq, and_true, BitVec.toNat_eq, BitVec.extractLsb'_toNat,
    Nat.shiftRight_eq_div_pow, wordOfBytes, append_toNat]
  omega

/-- A number read from four bytes is written as those bytes. -/
theorem bytesOfInt_readInt (b3 b2 b1 b0 : Byte) : bytesOfInt (readInt b3 b2 b1 b0) = [b3, b2, b1, b0] := by
  rw [bytesOfInt, readInt, BitVec.ofInt_toInt, bytesOfWord_wordOfBytes]

/-- Only the byte of a flag is read as the flag. -/
theorem eq_byteOfBool_of_readBool {b : Byte} {x : Bool} (h : readBool b = .ok x) : b = byteOfBool x := by
  unfold readBool at h
  split at h
  · cases h; assumption
  · split at h <;> cases h
    assumption

/-- A timeout that is there is read back. -/
theorem readTmo_bytesOfWord (t : Millis) :
    readTmo 0x01#8 (t.extractLsb' 24 8) (t.extractLsb' 16 8) (t.extractLsb' 8 8) (t.extractLsb' 0 8) =
      .ok (some t) := by
  rw [readTmo, if_pos rfl, wordOfBytes_extract]

/-- Only the bytes of an optional timeout are read as it: an absent one is zero in all its bytes. -/
theorem eq_bytesOfTmo_of_readTmo {f b3 b2 b1 b0 : Byte} {tmo : Option Millis}
    (h : readTmo f b3 b2 b1 b0 = .ok tmo) : [f, b3, b2, b1, b0] = bytesOfTmo tmo := by
  unfold readTmo at h
  split at h
  next hf =>
    cases h
    rw [bytesOfTmo, bytesOfWord_wordOfBytes, hf]
  next =>
    split at h
    next hf =>
      split at h <;> cases h
      next hzero => rw [bytesOfTmo, ← hzero, bytesOfWord_wordOfBytes, hf]
    next => cases h

/-! #### Each operand reader reads back what the encoder writes -/

section
variable {cmd sub v : Int} (tmo : Option Millis) (wrOk : Bool)

theorem decodeInt_bytesOfInt (k : Int → Instr) (hv : fitsVal v = true) : decodeInt k (bytesOfInt v) = .ok (k v) :=
  congrArg (fun n => Except.ok (k n)) (readInt_bytes v hv)

theorem decodeTwoInts_bytesOfInt (k : Int → Int → Instr) (hcmd : fitsVal cmd = true) (hsub : fitsVal sub = true) :
    decodeTwoInts k (bytesOfInt cmd ++ bytesOfInt sub) = .ok (k cmd sub) :=
  congrArg₂ (fun c n => Except.ok (k c n)) (readInt_bytes cmd hcmd) (readInt_bytes sub hsub)

theorem decodeOp_chunk {chunk : List Byte} (hfits : fitsChunk Config.rxChunkMax chunk.length = true) :
    decodeOp 0x04 chunk = .ok (.rxchunk chunk) := by
  rw [decodeOp, if_pos hfits]

theorem decodeClassify_cons (frame : List Byte) (allow : Bool) :
    decodeClassify (byteOfBool allow :: frame) = .ok (.classify frame allow) := by
  simp only [decodeClassify, readBool_byteOfBool, Except.bind]

theorem decodePlainCall_callBytes (k : Option Millis → Bool → Instr) :
    decodePlainCall k (callBytes tmo wrOk) = .ok (k tmo wrOk) := by
  cases tmo with
  | none => cases wrOk <;> rfl
  | some t =>
    simp only [callBytes, bytesOfTmo, bytesOfWord, List.cons_append, List.nil_append, decodePlainCall,
      readTmo_bytesOfWord, readBool_byteOfBool, Except.bind]

theorem decodeIntCall_callBytes (k : Int → Option Millis → Bool → Instr) (hv : fitsVal v = true) :
    decodeIntCall k (bytesOfInt v ++ callBytes tmo wrOk) = .ok (k v tmo wrOk) := by
  rw [← decodePlainCall_callBytes tmo wrOk (k v)]
  exact congrArg (fun n => decodePlainCall (k n) (callBytes tmo wrOk)) (readInt_bytes v hv)

theorem decodeToggleCall_callBytes (k : Bool → Option Millis → Bool → Instr) (on : Bool) :
    decodeToggleCall k (byteOfBool on :: callBytes tmo wrOk) = .ok (k on tmo wrOk) := by
  simp only [decodeToggleCall, readBool_byteOfBool, Except.bind, decodePlainCall_callBytes]

theorem decodeDispatch_bytes (t : Millis) (desc : Desc) (allow : Bool) (hcmd : fitsVal cmd = true)
    (hsub : fitsVal sub = true) :
    decodeDispatch desc
        (bytesOfInt cmd ++ bytesOfInt sub ++ bytesOfWord t ++ [byteOfBool allow, byteOfBool wrOk]) =
      .ok (.dispatch cmd sub t desc allow wrOk) := by
  simp only [bytesOfInt, bytesOfWord, List.cons_append, List.nil_append, decodeDispatch, readBool_byteOfBool,
    Except.bind, readInt_bytes cmd hcmd, readInt_bytes sub hsub, wordOfBytes_extract]

theorem decodePoll_bytes (delay t : Millis) (hv : fitsVal v = true) :
    decodePoll (bytesOfInt v ++ bytesOfWord delay ++ bytesOfWord t ++ [byteOfBool wrOk]) =
      .ok (.poll v delay t wrOk) := by
  simp only [bytesOfInt, bytesOfWord, List.cons_append, List.nil_append, decodePoll, readBool_byteOfBool,
    Except.bind, readInt_bytes v hv, wordOfBytes_extract]

end

/-- Settles O1: the operations are grouped by the reader of their operands. -/
theorem decodeReadsBackEveryEncodedOperation : Obligations.DecodeReadsBackEveryEncodedOperation := by
  intro i hwf
  cases i
  -- nothing, or bytes as they are; the two response frames
  case reset | portOpen | portClose | tmrfire | tick | compl | chkreq | csum | encrsp | decrsp | errdec => rfl
  case rspOk | rspError => rfl
  case rxchunk chunk => exact decodeOp_chunk hwf
  -- numbers and flags
  case mask8 v => exact decodeInt_bytesOfInt _ hwf
  case encreq cmd sub =>
    obtain ⟨hcmd, hsub⟩ := Bool.and_eq_true_iff.mp hwf
    exact decodeTwoInts_bytesOfInt _ hcmd hsub
  case classify frame allow => exact decodeClassify_cons frame allow
  case dispatch cmd sub t desc allow wrOk =>
    obtain ⟨hcmd, hsub⟩ := Bool.and_eq_true_iff.mp hwf
    exact decodeDispatch_bytes wrOk t desc allow hcmd hsub
  case poll m delay t wrOk => exact decodePoll_bytes wrOk delay t hwf
  -- the catalog operations: without an argument, the toggles, with a channel or a number
  case selftest tmo wrOk | resetall tmo wrOk | allspring tmo wrOk | allbelt tmo wrOk | allsingle tmo wrOk |
      repeatLast tmo wrOk | rdtemp tmo wrOk | rddoor tmo wrOk | opendoor tmo wrOk | accelen tmo wrOk =>
    exact decodePlainCall_callBytes tmo wrOk _
  case glassheat on tmo wrOk | light on tmo wrOk | buzzer on tmo wrOk | tempctl on tmo wrOk =>
    exact decodeToggleCall_callBytes tmo wrOk _ on
  all_goals exact decodeIntCall_callBytes _ _ _ hwf

/-! #### Each operand reader accepts only what the encoder writes -/

section
variable {bs : List Byte} {i : Instr}

theorem eq_nil_of_decodeNone {j : Instr} (h : decodeNone j bs = .ok i) : bs = [] ∧ i = j := by
  unfold decodeNone at h
  split at h <;> cases h
  exact ⟨rfl, rfl⟩

theorem eq_bytes_of_decodeByte {k : Byte → Instr} (h : decodeByte k bs = .ok i) : ∃ x, bs = [x] ∧ i = k x := by
  unfold decodeByte at h
  split at h <;> cases h
  exact ⟨_, rfl, rfl⟩

theorem eq_bytes_of_decodeFour {k : Byte → Byte → Byte → Byte → Instr} (h : decodeFour k bs = .ok i) :
    ∃ g st d a, bs = [g, st, d, a] ∧ i = k g st d a := by
  unfold decodeFour at h
  split at h <;> cases h
  exact ⟨_, _, _, _, rfl, rfl⟩

theorem eq_bytes_of_decodeInt {k : Int → Instr} (h : decodeInt k bs = .ok i) :
    ∃ v, bs = bytesOfInt v ∧ i = k v := by
  unfold decodeInt at h
  split at h <;> cases h
  exact ⟨_, (bytesOfInt_readInt ..).symm, rfl⟩

theorem eq_bytes_of_decodeTwoInts {k : Int → Int → Instr} (h : decodeTwoInts k bs = .ok i) :
    ∃ c v, bs = bytesOfInt c ++ bytesOfInt v ∧ i = k c v := by
  unfold decodeTwoInts at h
  split at h <;> cases h
  exact ⟨_, _, by rw [bytesOfInt_readInt, bytesOfInt_readInt]; rfl, rfl⟩

theorem eq_bytes_of_decodeClassify (h : decodeClassify bs = .ok i) :
    ∃ frame allow, bs = byteOfBool allow :: frame ∧ i = .classify frame allow := by
  unfold decodeClassify at h
  split at h
  · obtain ⟨allow, hallow, h⟩ := bind_eq_ok h
    cases h
    exact ⟨_, allow, by rw [eq_byteOfBool_of_readBool hallow], rfl⟩
  · cases h

theorem eq_callBytes_of_decodePlainCall {k : Option Millis → Bool → Instr} (h : decodePlainCall k bs = .ok i) :
    ∃ tmo wrOk, bs = callBytes tmo wrOk ∧ i = k tmo wrOk := by
  unfold decodePlainCall at h
  split at h
  · obtain ⟨tmo, htmo, h⟩ := bind_eq_ok h
    obtain ⟨wrOk, hwr, h⟩ := bind_eq_ok h
    cases h
    exact ⟨tmo, wrOk, by rw [callBytes, ← eq_bytesOfTmo_of_readTmo htmo, ← eq_byteOfBool_of_readBool hwr]; rfl, rfl⟩
  · cases h

theorem eq_callBytes_of_decodeIntCall {k : Int → Option Millis → Bool → Instr} (h : decodeIntCall k bs = .ok i) :
    ∃ v tmo wrOk, bs = bytesOfInt v ++ callBytes tmo wrOk ∧ i = k v tmo wrOk := by
  unfold decodeIntCall at h
  split at h
  · obtain ⟨tmo, wrOk, rfl, rfl⟩ := eq_callBytes_of_decodePlainCall h
    exact ⟨_, tmo, wrOk, by rw [bytesOfInt_readInt]; rfl, rfl⟩
  · cases h

theorem eq_callBytes_of_decodeToggleCall {k : Bool → Option Millis → Bool → Instr}
    (h : decodeToggleCall k bs = .ok i) :
    ∃ on tmo wrOk, bs = byteOfBool on :: callBytes tmo wrOk ∧ i = k on tmo wrOk := by
  unfold decodeToggleCall at h
  split at h
  · obtain ⟨on, hon, h⟩ := bind_eq_ok h
    obtain ⟨tmo, wrOk, rfl, rfl⟩ := eq_callBytes_of_decodePlainCall h
    exact ⟨on, tmo, wrOk, by rw [eq_byteOfBool_of_readBool hon], rfl⟩
  · cases h

theorem eq_bytes_of_decodeDispatch {desc : Desc} (h : decodeDispatch desc bs = .ok i) :
    ∃ cmd sub t allow wrOk,
      bs = bytesOfInt cmd ++ bytesOfInt sub ++ bytesOfWord t ++ [byteOfBool allow, byteOfBool wrOk] ∧
        i = .dispatch cmd sub t desc allow wrOk := by
  unfold decodeDispatch at h
  split at h
  · obtain ⟨allow, hallow, h⟩ := bind_eq_ok h
    obtain ⟨wrOk, hwr, h⟩ := bind_eq_ok h
    cases h
    refine ⟨_, _, _, allow, wrOk, ?_, rfl⟩
    rw [bytesOfInt_readInt, bytesOfInt_readInt, bytesOfWord_wordOfBytes, ← eq_byteOfBool_of_readBool hallow,
      ← eq_byteOfBool_of_readBool hwr]
    rfl
  · cases h

theorem eq_bytes_of_decodePoll (h : decodePoll bs = .ok i) :
    ∃ m delay t wrOk, bs = bytesOfInt m ++ bytesOfWord delay ++ bytesOfWord t ++ [byteOfBool wrOk] ∧
      i = .poll m delay t wrOk := by
  unfold decodePoll at h
  split at h
  · obtain ⟨wrOk, hwr, h⟩ := bind_eq_ok h
    cases h
    refine ⟨_, _, _, wrOk, ?_, rfl⟩
    rw [bytesOfInt_readInt, bytesOfWord_wordOfBytes, bytesOfWord_wordOfBytes, ← eq_byteOfBool_of_readBool hwr]
    rfl
  · cases h

/-- An operation read by its number is written with that number and those operands. The arms of `decodeOp`, counted in its order, are
grouped by the reader of their operands. -/
theorem encode_of_decodeOp {opn : Nat} (h : decodeOp opn bs = .ok i) : encode i = opWord (BitVec.ofNat 8 opn) bs := by
  unfold decodeOp at h
  split at h
  -- no operand
  case h_1 | h_2 | h_3 | h_6 | h_7 => obtain ⟨rfl, rfl⟩ := eq_nil_of_decodeNone h; rfl
  -- bytes as they are, a chunk's measured by the decoder
  case h_5 => split at h <;> cases h; rfl
  case h_11 | h_14 => cases h; rfl
  case h_9 | h_15 => obtain ⟨x, rfl, rfl⟩ := eq_bytes_of_decodeByte h; rfl
  case h_12 | h_13 => obtain ⟨g, st, d, a, rfl, rfl⟩ := eq_bytes_of_decodeFour h; rfl
  -- numbers and flags
  case h_8 => obtain ⟨v, rfl, rfl⟩ := eq_bytes_of_decodeInt h; rfl
  case h_10 => obtain ⟨c, v, rfl, rfl⟩ := eq_bytes_of_decodeTwoInts h; rfl
  case h_16 => obtain ⟨frame, allow, rfl, rfl⟩ := eq_bytes_of_decodeClassify h; rfl
  case h_45 => obtain ⟨m, delay, t, wrOk, rfl, rfl⟩ := eq_bytes_of_decodePoll h; rfl
  -- the catalog operations: with a channel or a number, without an argument, the toggles
  case h_17 | h_18 | h_25 | h_26 | h_27 | h_28 | h_29 | h_30 | h_31 | h_32 | h_33 | h_34 | h_35 | h_40 =>
    obtain ⟨v, tmo, wrOk, rfl, rfl⟩ := eq_callBytes_of_decodeIntCall h
    rfl
  case h_19 | h_20 | h_21 | h_22 | h_23 | h_24 | h_41 | h_42 | h_43 | h_44 =>
    obtain ⟨tmo, wrOk, rfl, rfl⟩ := eq_callBytes_of_decodePlainCall h
    rfl
  case h_36 | h_37 | h_38 | h_39 => obtain ⟨on, tmo, wrOk, rfl, rfl⟩ := eq_callBytes_of_decodeToggleCall h; rfl
  -- DISPATCH without its description, and the numbers that name no operation
  case h_4 | h_46 => cases h

/-- Only DISPATCH is read beside a description, and it is written with it (R73). -/
theorem encode_of_decodeDescribed {desc : Desc} {opn : Nat} (h : decodeDescribed desc opn bs = .ok i) :
    encode i = describedWord desc (BitVec.ofNat 8 opn) bs := by
  unfold decodeDescribed at h
  split at h
  · obtain ⟨cmd, sub, t, allow, wrOk, rfl, rfl⟩ := eq_bytes_of_decodeDispatch h
    rfl
  · cases h

end

/-- Settles O2: a word of format `op` is its number and operands, without or with a description. -/
theorem encodeReadsBackEveryDecodedWord : Obligations.EncodeReadsBackEveryDecodedWord := by
  rintro ⟨format, bytes, desc⟩ i hformat h
  obtain rfl : format = .op := hformat
  cases bytes with
  | nil => cases h
  | cons o rest =>
    have hnumber : BitVec.ofNat 8 o.toNat = o := by simp
    cases desc with
    | none => rw [encode_of_decodeOp h, hnumber, opWord]
    | some d => rw [encode_of_decodeDescribed h, hnumber, describedWord]

/-- Settles O4: the decoder run on each word. -/
theorem wordsOfTheSpecDecode : Obligations.WordsOfTheSpecDecode :=
  ⟨rfl, rfl, rfl, rfl, rfl, rfl, rfl, rfl, rfl, rfl⟩

end Sys2Proof

namespace Sys2Proof.Machine

/-! #### Response frames that arrive whole (R61, R63, assumption log 9) -/

/-- A frame that ENCRSP writes passes both tests of DECRSP, so only its status is left to classify (40_frame_codec.md R96). -/
theorem classify_encodeResponse (g st d a : Byte) (allow : Bool) :
    classify (encodeResponse g st d a) allow = classifyFrame ⟨g, st, d, a, encodeResponse g st d a⟩ allow := by
  simp only [classify, encodeResponse, decodeResponse, if_true]

/-- Status OK is a result whatever `allow` is (42_correlator.md R125). -/
theorem classifyFrame_stOk (g d a : Byte) (raw : List Byte) (allow : Bool) :
    classifyFrame ⟨g, Config.stOk, d, a, raw⟩ allow = .ok ⟨g, Config.stOk, d, a, raw⟩ := by
  cases allow <;> rfl

/-- Status ERROR is a result with `allow` and a controller error without it (42_correlator.md R125). -/
theorem classifyFrame_stError (g d a : Byte) (raw : List Byte) (allow : Bool) :
    classifyFrame ⟨g, Config.stError, d, a, raw⟩ allow =
      if allow then .ok ⟨g, Config.stError, d, a, raw⟩
      else .fail (.controllerError Config.stError d a (decodeError d) raw) := by
  cases allow <;> rfl

/-- Five bytes that reach an empty buffer are the frame that ends a host's request (42_correlator.md R124). -/
theorem State.receive_frame_of_host {s : State} {r : Pending} {frame : List Byte} (hst : s.st = .awaitingReply)
    (hp : s.p = some r) (hbuf : s.rxbuf = []) (hc : s.caller = .host) (hlen : frame.length = 5) :
    s.receive frame = .next (finished s [] [.done (classify frame r.allow)]) := by
  have hbytes : s.rxbuf ++ frame = frame := by rw [hbuf, List.nil_append]
  obtain ⟨hidle, -⟩ | ⟨hidle, -⟩ | ⟨-, hshort, -⟩ | ⟨-, -, hnone, -⟩ | ⟨r', -, -, hp', heq⟩ := s.receive_cases frame
  · simp [hst] at hidle
  · simp [hst] at hidle
  · rw [hbytes] at hshort; omega
  · simp [hp] at hnone
  · obtain rfl : r = r' := Option.some.inj (hp.symm.trans hp')
    rw [heq, hbytes, List.take_of_length_le hlen.le, List.drop_of_length_le hlen.le, hc]
    rfl

/-- Settles O21: each frame is the chunk of its bytes, and the frames of the second part are those ENCRSP writes. -/
theorem responseFramesCompleteTheRequest : Obligations.ResponseFramesCompleteTheRequest := by
  refine ⟨fun g d a k s => ⟨rfl, rfl⟩, fun g d a s r hst hp hbuf hc => ?_⟩
  have hdone (st : Byte) : s.receive (encodeResponse g st d a) =
      .next (finished s [] [.done (classifyFrame ⟨g, st, d, a, encodeResponse g st d a⟩ r.allow)]) := by
    rw [State.receive_frame_of_host hst hp hbuf hc rfl, classify_encodeResponse]
  have hok := hdone Config.stOk
  have herror := hdone Config.stError
  rw [classifyFrame_stOk] at hok
  rw [classifyFrame_stError] at herror
  exact ⟨hok, herror⟩

end Sys2Proof.Machine

/-! ### 40_frame_codec.md: the request frame and its validator (R90 to R93), the response frame and its decoder (R94 to R96) -/

namespace Sys2Proof.Machine

/-! #### The pure functions return their value and change nothing else (R90 to R96, assumption log 5) -/

section
variable (s : State)

theorem exec_mask8 (v : Int) :
    exec (.mask8 v) s = .next { s with trace := s.trace ++ [.value (.byte (maskByte v))] } := rfl

theorem exec_compl (x : Byte) :
    exec (.compl x) s = .next { s with trace := s.trace ++ [.value (.byte (complByte x))] } := rfl

theorem exec_encreq (cmd sub : Int) :
    exec (.encreq cmd sub) s = .next { s with trace := s.trace ++ [.value (.bytes (encodeRequest cmd sub))] } := rfl

theorem exec_chkreq (bytes : List Byte) :
    exec (.chkreq bytes) s = .next { s with trace := s.trace ++ [.value (.check (checkRequest bytes))] } := rfl

theorem exec_csum (g st d a : Byte) :
    exec (.csum g st d a) s = .next { s with trace := s.trace ++ [.value (.byte (checksum g st d a))] } := rfl

theorem exec_encrsp (g st d a : Byte) :
    exec (.encrsp g st d a) s = .next { s with trace := s.trace ++ [.value (.bytes (encodeResponse g st d a))] } := rfl

theorem exec_decrsp (bytes : List Byte) :
    exec (.decrsp bytes) s = .next { s with trace := s.trace ++ [.value (.result (decodeResponse bytes))] } := rfl

end

/-! #### COMPL bit by bit (R91), and masks of bits -/

/-- Were `255 - x = x`, 255 would be even (40_frame_codec.md R91, R97). -/
theorem complByte_ne_self (x : Byte) : complByte x ≠ x := by
  intro h
  have hnum := congrArg BitVec.toNat h
  rw [complByte_toNat] at hnum
  omega

/-- COMPL works bit by bit: bits inverted in a byte are inverted in its complement (40_frame_codec.md R91, R93). -/
theorem complByte_xor (x m : Byte) : complByte (x ^^^ m) = complByte x ^^^ m := by
  rw [complByte_eq_xor, complByte_eq_xor]
  ac_rfl

/-- A mask of one of the eight bits inverts a bit. -/
theorem twoPow_ne_zero {k : Nat} (hk : k < 8) : BitVec.twoPow 8 k ≠ 0#8 := by
  intro h
  have hbit := congrArg (fun m : Byte => m.getLsbD k) h
  simp [hk] at hbit

/-! #### ENCREQ and CHKREQ (R92, R93) -/

/-- The frame of ENCREQ with the deployment's group id written out (40_frame_codec.md R92, 00_scope.md R6). -/
theorem encodeRequest_eq (cmd sub : Int) : encodeRequest cmd sub =
    [0x00#8, 0xFF#8, maskByte cmd, complByte (maskByte cmd), maskByte sub, complByte (maskByte sub)] := rfl

/-- ENCREQ is injective on bytes: they are bytes 2 and 4 of the frame (40_frame_codec.md R98 P3). -/
theorem encodeRequest_inj {c x c' x' : Byte}
    (h : encodeRequest c.toNat x.toNat = encodeRequest c'.toNat x'.toNat) : c = c' ∧ x = x' := by
  simp only [encodeRequest_eq, maskByte_byte, List.cons.injEq] at h
  obtain ⟨-, -, hc, -, hx, -⟩ := h
  exact ⟨hc, hx⟩

/-- CHKREQ tests the length first (40_frame_codec.md R93). -/
theorem checkRequest_of_length_ne {bytes : List Byte} (h : bytes.length ≠ 6) : checkRequest bytes = .invalidLength := by
  unfold checkRequest
  split
  · exact absurd rfl h
  · rfl

/-- Of six bytes CHKREQ tests the three pairs (40_frame_codec.md R93). -/
theorem checkRequest_six (b0 b1 b2 b3 b4 b5 : Byte) : checkRequest [b0, b1, b2, b3, b4, b5] =
    if badPairs b0 b1 b2 b3 b4 b5 = [] then .valid b0 b2 b4 else .invalidPairs (badPairs b0 b1 b2 b3 b4 b5) := rfl

/-- The bad pairs are those of R93's set comprehension over {0, 2, 4}, in ascending order. -/
theorem badPairs_eq_filter (b0 b1 b2 b3 b4 b5 : Byte) : badPairs b0 b1 b2 b3 b4 b5 =
    [0, 2, 4].filter (fun i => [b0, b1, b2, b3, b4, b5].getD (i + 1) 0x00#8 !=
      complByte ([b0, b1, b2, b3, b4, b5].getD i 0x00#8)) := by
  rw [show [0, 2, 4] = [0] ++ [2] ++ [4] from rfl, List.filter_append, List.filter_append]
  simp [badPairs, List.filter_singleton, cond_eq_ite]

/-- Three complementary pairs are a valid frame, whatever the group id (40_frame_codec.md R93, assumption log 17). -/
theorem checkRequest_of_complementary {b0 b1 b2 b3 b4 b5 : Byte} (hgroup : b1 = complByte b0) (hcmd : b3 = complByte b2)
    (hsub : b5 = complByte b4) : checkRequest [b0, b1, b2, b3, b4, b5] = .valid b0 b2 b4 := by
  simp [checkRequest_six, badPairs, hgroup, hcmd, hsub]

/-- CHKREQ accepts every frame ENCREQ writes (40_frame_codec.md R98 P2). -/
theorem checkRequest_encodeRequest (cmd sub : Int) :
    checkRequest (encodeRequest cmd sub) = .valid 0x00#8 (maskByte cmd) (maskByte sub) :=
  checkRequest_of_complementary rfl rfl rfl

section
variable {b r : Byte} (h : r ≠ complByte b)
include h

theorem checkRequest_bad_groupPair (c x : Byte) :
    checkRequest [b, r, c, complByte c, x, complByte x] = .invalidPairs [0] := by
  simp [checkRequest_six, badPairs, h]

theorem checkRequest_bad_cmdPair (g x : Byte) :
    checkRequest [g, complByte g, b, r, x, complByte x] = .invalidPairs [2] := by
  simp [checkRequest_six, badPairs, h]

theorem checkRequest_bad_subPair (g c : Byte) :
    checkRequest [g, complByte g, c, complByte c, b, r] = .invalidPairs [4] := by
  simp [checkRequest_six, badPairs, h]

end

/-! #### CSUM and DECRSP (R94 to R96) -/

/-- The sum of integers and the 8-bit accumulator give the same byte (40_frame_codec.md R94). -/
theorem checksum_eq_checksumAcc (g st d a : Byte) : checksum g st d a = checksumAcc [g, st, d, a] := by
  simp [checksum_eq_add, checksumAcc]

/-- DECRSP tests the length first (40_frame_codec.md R96). -/
theorem decodeResponse_of_length_ne {bytes : List Byte} (h : bytes.length ≠ 5) :
    decodeResponse bytes = .fail (.badLength bytes.length bytes) := by
  unfold decodeResponse
  split
  · exact absurd rfl h
  · rfl

/-- Of five bytes DECRSP tests the checksum only (40_frame_codec.md R96). -/
theorem decodeResponse_five (g st d a k : Byte) : decodeResponse [g, st, d, a, k] =
    if checksum g st d a = k then .ok ⟨g, st, d, a, [g, st, d, a, k]⟩
    else .fail (.badChecksum (checksum g st d a) k [g, st, d, a, k]) := rfl

theorem decodeResponse_of_checksum_ne {g st d a k : Byte} (h : checksum g st d a ≠ k) :
    decodeResponse [g, st, d, a, k] = .fail (.badChecksum (checksum g st d a) k [g, st, d, a, k]) :=
  if_neg h

/-- DECRSP reads back what ENCRSP writes (40_frame_codec.md R98 P1). -/
theorem decodeResponse_encodeResponse (g st d a : Byte) :
    decodeResponse (encodeResponse g st d a) = .ok ⟨g, st, d, a, encodeResponse g st d a⟩ :=
  if_pos rfl

/-- DECRSP accepts only frames that ENCRSP writes (40_frame_codec.md R96, R98 P1). -/
theorem eq_encodeResponse_of_decodeResponse {bytes : List Byte} {f : Frame} (h : decodeResponse bytes = .ok f) :
    bytes = encodeResponse f.groupId f.status f.data f.aux := by
  unfold decodeResponse at h
  split at h
  next g st d a k =>
    split at h
    next hk =>
      obtain rfl := Result.ok.inj h
      rw [encodeResponse, hk]
    next => cases h
  next => cases h

/-- Five bytes are accepted exactly with the checksum of the first four as their last (40_frame_codec.md R98 P1). -/
theorem decodeResponse_accepts_iff (g st d a k : Byte) :
    (∃ f, decodeResponse [g, st, d, a, k] = .ok f) ↔ checksum g st d a = k := by
  rw [decodeResponse_five]
  split <;> simp [*]

/-! #### One operation of the codec each (R90 to R96) -/

/-- Settles O7. -/
theorem mask8ReturnsTheLowByte : Obligations.Mask8ReturnsTheLowByte :=
  fun v s => ⟨maskByte v, exec_mask8 s v, maskByte_toNat v⟩

/-- Settles O8. -/
theorem complReturnsTheComplement : Obligations.ComplReturnsTheComplement :=
  fun x s => ⟨complByte x, exec_compl s x, complByte_toNat x, complByte_eq_xor x, complByte_ne_self x⟩

/-- Settles O9. -/
theorem encreqBuildsTheRequestFrame : Obligations.EncreqBuildsTheRequestFrame := by
  intro cmd sub s
  refine ⟨maskByte cmd, maskByte sub, maskByte_toNat cmd, maskByte_toNat sub, ?_⟩
  rw [exec_encreq, encodeRequest_eq, complByte, complByte]

/-- Settles O10. -/
theorem chkreqNamesTheBadPairs : Obligations.ChkreqNamesTheBadPairs := by
  refine ⟨fun bytes s hlen => ?_, fun b0 b1 b2 b3 b4 b5 s => ?_⟩
  · rw [exec_chkreq, checkRequest_of_length_ne hlen]
  · dsimp only
    rw [exec_chkreq, checkRequest_six, badPairs_eq_filter]
    rfl

/-- Settles O13. -/
theorem csumAndEncrspReturnTheSumModulo256 : Obligations.CsumAndEncrspReturnTheSumModulo256 :=
  fun g st d a s => ⟨checksum g st d a, checksum_toNat g st d a, checksum_eq_checksumAcc g st d a,
    exec_csum s g st d a, exec_encrsp s g st d a⟩

/-- Settles O14. -/
theorem decrspTestsLengthThenChecksum : Obligations.DecrspTestsLengthThenChecksum := by
  refine ⟨fun bytes s hlen => ?_, fun g st d a k s => ?_⟩
  · rw [exec_decrsp, decodeResponse_of_length_ne hlen]
  · rw [exec_decrsp, decodeResponse_five, checksum]

/-! #### Round trips (R98) and the errors the redundancy detects (R93, R94) -/

/-- Settles O11, property by property. -/
theorem codecRoundTripProperties : Obligations.CodecRoundTripProperties := by
  refine ⟨fun g st d a k => ?_, decodeResponse_encodeResponse, fun cmd sub => ?_, fun _ _ _ _ => encodeRequest_inj⟩
  · rw [decodeResponse_accepts_iff, ← checksum_toNat, eq_comm, BitVec.toNat_inj]
  · exact ⟨maskByte cmd, maskByte sub, maskByte_toNat cmd, maskByte_toNat sub, checkRequest_encodeRequest cmd sub⟩

/-- Settles O12: an inverted bit breaks the pair from either side, and from both sides it is the pair of the inverted byte. -/
theorem oneBitErrorsOfARequestAreDetected : Obligations.OneBitErrorsOfARequestAreDetected := by
  intro g c x k hk frame flip
  have hmask := twoPow_ne_zero hk
  have hodd (b : Byte) : flip (complByte b) ≠ complByte b := mt xor_left_eq_self_iff.mp hmask
  have hboth (b : Byte) : flip (complByte b) = complByte (flip b) := (complByte_xor b (BitVec.twoPow 8 k)).symm
  have heven (b : Byte) : complByte b ≠ complByte (flip b) := hboth b ▸ (hodd b).symm
  have hframe : frame = [g, complByte g, c, complByte c, x, complByte x] := rfl
  rw [hframe]
  refine ⟨fun j hj => ?_, fun j hj => ?_⟩
  · interval_cases j
    · exact checkRequest_bad_groupPair (heven g) c x
    · exact checkRequest_bad_groupPair (hodd g) c x
    · exact checkRequest_bad_cmdPair (heven c) g x
    · exact checkRequest_bad_cmdPair (hodd c) g x
    · exact checkRequest_bad_subPair (heven x) g c
    · exact checkRequest_bad_subPair (hodd x) g c
  · interval_cases j
    · exact ⟨flip g, c, x, checkRequest_of_complementary (hboth g) rfl rfl⟩
    · exact ⟨g, flip c, x, checkRequest_of_complementary rfl (hboth c) rfl⟩
    · exact ⟨g, c, flip x, checkRequest_of_complementary rfl rfl (hboth x)⟩

/-- Settles O15: one summand changed changes the sum, and a changed last byte is not the sum. -/
theorem singleByteErrorsOfAResponseAreDetected : Obligations.SingleByteErrorsOfAResponseAreDetected := by
  intro bytes f j b haccepted hj hne
  obtain ⟨g, st, d, a, raw⟩ := f
  obtain rfl : bytes = encodeResponse g st d a := eq_encodeResponse_of_decodeResponse haccepted
  obtain rfl | hsummand : j = 4 ∨ j < 4 := by omega
  · exact ⟨_, _, decodeResponse_of_checksum_ne hne⟩
  · interval_cases j <;> refine ⟨_, _, decodeResponse_of_checksum_ne ?_⟩ <;>
      simpa [checksum_eq_add, encodeResponse] using hne.symm

end Sys2Proof.Machine

/-! ### 41_error_decoder.md: the error byte in two nibbles (R110) and their two tables (R111, R112) -/

namespace Sys2Proof.Machine

theorem exec_errdec (data : Byte) (s : State) :
    exec (.errdec data) s = .next { s with trace := s.trace ++ [.value (.errorInfo (decodeError data))] } := rfl

/-! #### The nibbles as numbers (R110) -/

theorem highNibble_toNat (b : Byte) : (b.extractLsb' 4 4).toNat = b.toNat / 16 := by
  have hlt : b.toNat / 16 < 16 := Nat.div_lt_of_lt_mul b.isLt
  rw [BitVec.extractLsb'_toNat, Nat.shiftRight_eq_div_pow]
  exact Nat.mod_eq_of_lt hlt

theorem lowNibble_toNat (b : Byte) : (b.extractLsb' 0 4).toNat = b.toNat % 16 := by
  rw [BitVec.extractLsb'_toNat, Nat.shiftRight_zero]

/-! #### The tables as lists of labels: the defined codes are the indices, any code past the end is "unknown" (R111, R112) -/

theorem mechText_eq_getD (code : Nibble) :
    mechText code = [MechText.ok, .pMosfetShort, .nMosfetShort, .motorShort, .motorOpen,
      .motorRotationTimeout].getD code.toNat .unknown := by
  rw [mechText]
  generalize code.toNat = n
  match n with
  | 0 | 1 | 2 | 3 | 4 | 5 => rfl
  | _ + 6 => rfl

theorem optText_eq_getD (code : Nibble) :
    optText code = [OptText.ok, .falseTrigger, .noSignalOnToggle, .ambiguousConstantSignalDuringVend].getD
      code.toNat .unknown := by
  rw [optText]
  generalize code.toNat = n
  match n with
  | 0 | 1 | 2 | 3 => rfl
  | _ + 4 => rfl

/-- Settles O16: each label is looked up at its nibble, and each nibble is a quotient or a remainder by 16. -/
theorem errdecSplitsTheErrorByte : Obligations.ErrdecSplitsTheErrorByte := by
  intro data s
  have hmech := highNibble_toNat data
  have hopt := lowNibble_toNat data
  refine ⟨decodeError data, exec_errdec data s, hmech, hopt, ?_, ?_⟩
  · rw [← hmech]
    exact mechText_eq_getD _
  · rw [← hopt]
    exact optText_eq_getD _

end Sys2Proof.Machine

/-! ### 42_correlator.md: CLASSIFY (R125), the events (R122, R124, R127 to R130), and what follows of them (R126, R131, R133) -/

namespace Sys2Proof.Machine

/-! #### CLASSIFY (R125) -/

theorem exec_classify (bytes : List Byte) (allow : Bool) (s : State) :
    exec (.classify bytes allow) s = .next { s with trace := s.trace ++ [.value (.result (classify bytes allow))] } := rfl

/-- What DECRSP refuses CLASSIFY reports unchanged. -/
theorem classify_of_decodeResponse_fail {bytes : List Byte} {f : Failure} (h : decodeResponse bytes = .fail f)
    (allow : Bool) : classify bytes allow = .fail f := by
  rw [classify, h]

/-- Five bytes have their checksum tested, then their status. -/
theorem classify_five (g st d a k : Byte) (allow : Bool) : classify [g, st, d, a, k] allow =
    if checksum g st d a ≠ k then .fail (.badChecksum (checksum g st d a) k [g, st, d, a, k])
    else classifyFrame ⟨g, st, d, a, [g, st, d, a, k]⟩ allow := by
  by_cases hsum : checksum g st d a = k
  · rw [if_neg (not_not_intro hsum), classify, decodeResponse_five, if_pos hsum]
  · rw [if_pos hsum, classify_of_decodeResponse_fail (decodeResponse_of_checksum_ne hsum)]

/-- Settles O17: a wrong length and a wrong checksum are DECRSP's failures, the rest are the tests of the status. -/
theorem classifyReportsTheFirstFailure : Obligations.ClassifyReportsTheFirstFailure := by
  refine ⟨fun bytes allow s hlen => ?_, fun g st d a k allow s => ?_⟩
  · rw [exec_classify, classify_of_decodeResponse_fail (decodeResponse_of_length_ne hlen)]
  · dsimp only
    rw [exec_classify, classify_five]
    rfl

/-! #### What a resumed caller leaves alone (R134) -/

section
variable (s : State) (c : Caller) (r : Result)

@[simp] theorem State.resume_portOpen : (s.resume c r).portOpen = s.portOpen := by
  obtain ⟨_, _, heq⟩ := s.resume_frame c r
  rw [heq]

@[simp] theorem State.resume_p : (s.resume c r).p = s.p := by
  obtain ⟨_, _, heq⟩ := s.resume_frame c r
  rw [heq]

@[simp] theorem State.resume_now : (s.resume c r).now = s.now := by
  obtain ⟨_, _, heq⟩ := s.resume_frame c r
  rw [heq]

/-- After DONE a waiting call or poll adds to the paused polls and the outputs only. -/
theorem State.resume_finished (rx : List Byte) : ∃ polls more, (finished s rx [.done r]).resume c r =
    { finished s rx [.done r] with polls := polls, trace := s.trace ++ .done r :: more } := by
  obtain ⟨polls, more, heq⟩ := (finished s rx [.done r]).resume_frame c r
  exact ⟨polls, more, by rw [heq]; simp⟩

end

/-! #### RXCHUNK case by case (R124) -/

theorem exec_rxchunk (chunk : List Byte) (s : State) : exec (.rxchunk chunk) s = s.receive chunk := rfl

/-- Two chunks appended one after the other are their concatenation appended. -/
@[simp] theorem State.memAppend_memAppend (s : State) (c1 c2 : List Byte) :
    (s.memAppend c1).memAppend c2 = s.memAppend (c1 ++ c2) := by
  simp [State.memAppend]

section
variable {s : State} {chunk : List Byte}

/-- In Idle a chunk is stray. -/
theorem State.receive_idle (hst : s.st = .idle) :
    s.receive chunk = .next (if chunk = [] then s else s.emit (.log (.stray chunk))) := by
  simp only [State.receive, hst]

/-- Fewer than five bytes wait for more. -/
theorem State.receive_short (hst : s.st = .awaitingReply) (hlen : (s.rxbuf ++ chunk).length < 5) :
    s.receive chunk = .next (s.memAppend chunk) := by
  have hshort : (s.memAppend chunk).rxbuf.length < Config.rspLen := hlen
  simp only [State.receive, hst, if_pos hshort]

/-- Five bytes are a frame: the request ends with its result, and what follows the frame stays in the buffer. -/
theorem State.receive_full {r : Pending} (hst : s.st = .awaitingReply) (hlen : 5 ≤ (s.rxbuf ++ chunk).length)
    (hp : s.p = some r) : s.receive chunk = .next ((finished s ((s.rxbuf ++ chunk).drop 5)
      [.done (classify ((s.rxbuf ++ chunk).take 5) r.allow)]).resume s.caller
        (classify ((s.rxbuf ++ chunk).take 5) r.allow)) := by
  have hfull : ¬ (s.memAppend chunk).rxbuf.length < Config.rspLen := Nat.not_lt.mpr hlen
  simp only [State.receive, hst, if_neg hfull, hp]
  rfl

end

/-- Settles O20, by the phase and the number of bytes there. -/
theorem rxchunkDiscardsBuffersOrCompletes : Obligations.RxchunkDiscardsBuffersOrCompletes := by
  intro chunk s
  refine ⟨fun hst => State.receive_idle hst, fun hst hlen => State.receive_short hst hlen, fun r hst hlen hp => ?_⟩
  intro result after
  have hfull : exec (.rxchunk chunk) s = .next (after.resume s.caller result) := State.receive_full hst hlen hp
  rw [hfull]
  refine ⟨?_, fun hc => by rw [hc]; rfl⟩
  obtain ⟨polls, more, heq⟩ := s.resume_finished s.caller result ((s.rxbuf ++ chunk).drop 5)
  exact ⟨polls, more, congrArg Host.Outcome.next heq⟩

/-- Settles O22: the first chunk is only appended, and then the phase, the record and the joined bytes are all that counts. -/
theorem chunkBoundariesBeforeTheFifthByteDoNotMatter : Obligations.ChunkBoundariesBeforeTheFifthByteDoNotMatter := by
  intro s c1 c2 hst hlen
  refine ⟨s.memAppend c1, State.receive_short hst hlen, ?_⟩
  simp only [exec_rxchunk, State.receive, State.memAppend_st, hst, State.memAppend_memAppend, State.memAppend_p]

/-! #### TMRFIRE, TICK, OPEN and CLOSE (R127 to R130) -/

theorem exec_tmrfire (s : State) : exec .tmrfire s = execTmrfire s := rfl

theorem exec_tick (s : State) : exec .tick s = execTick s := rfl

section
variable {s : State} {r : Pending}

/-- An armed timer whose deadline is due ends the request and clears the buffer. -/
theorem execTmrfire_of_due (hst : s.st = .awaitingReply) (htmr : s.tmrArmed = true) (hp : s.p = some r)
    (hdue : r.tmo.toNat ≤ (s.now - r.t0).toNat) :
    execTmrfire s = .next ((finished s [] [.done (.fail (.commTimeout (s.now - r.t0) r.tmo r.desc))]).resume s.caller
      (.fail (.commTimeout (s.now - r.t0) r.tmo r.desc))) := by
  simp only [execTmrfire, if_pos (And.intro hst htmr), hp, if_pos ((requestDue_iff r s.now).mpr hdue)]
  rfl

/-- In Idle no deadline is due. -/
theorem deadlineDue_idle (hst : s.st = .idle) : deadlineDue s = false := by
  simp [deadlineDue, hst]

/-- Before its timeout the pending request is not due. -/
theorem deadlineDue_early (hp : s.p = some r) (hearly : (s.now - r.t0).toNat < r.tmo.toNat) : deadlineDue s = false := by
  rw [← Bool.not_eq_true, deadlineDue_iff s r hp]
  rintro ⟨-, hdue⟩
  omega

/-- TICK advances the clock where `P` can be read and no deadline is due. -/
theorem execTick_of_not_due (hp : s.st = .idle ∨ s.p ≠ none) (hdue : deadlineDue s = false) :
    execTick s = .next { s with now := s.now + 1#64 } := by
  have hread : ¬ (s.st = .awaitingReply ∧ s.p = none) := by
    rintro ⟨hst, hnone⟩
    obtain hidle | hsome := hp
    · simp [hst] at hidle
    · exact hsome hnone
  simp [execTick, if_neg hread, hdue]

/-- TICK is disabled while a deadline is due. -/
theorem execTick_of_due (hst : s.st = .awaitingReply) (hp : s.p = some r) (hdue : r.tmo.toNat ≤ (s.now - r.t0).toNat) :
    execTick s = .refused .tickNotEnabled := by
  have hdue' : deadlineDue s = true := (deadlineDue_iff s r hp).mpr ⟨hst, hdue⟩
  simp [execTick, hp, hdue']

end

/-- Settles O25. -/
theorem tmrfireEndsTheRequestWithCommTimeout : Obligations.TmrfireEndsTheRequestWithCommTimeout := by
  intro s r hst htmr hp hdue failure after
  have hfire : exec .tmrfire s = .next (after.resume s.caller (.fail failure)) := execTmrfire_of_due hst htmr hp hdue
  rw [hfire]
  refine ⟨?_, fun hc => by rw [hc]; rfl⟩
  obtain ⟨polls, more, heq⟩ := s.resume_finished s.caller (.fail failure) []
  exact ⟨polls, more, congrArg Host.Outcome.next heq⟩

/-- Settles O26: in both cases `P` can be read and no deadline is due. -/
theorem tickAdvancesTimeByOne : Obligations.TickAdvancesTimeByOne := by
  intro s henabled
  have hnow : s.now + 1#64 = BitVec.ofNat 64 ((s.now.toNat + 1) % 2 ^ 64) := by
    apply BitVec.eq_of_toNat_eq
    simp [BitVec.toNat_add]
  rw [exec_tick, ← hnow]
  obtain hst | ⟨r, hp, hearly⟩ := henabled
  · exact execTick_of_not_due (.inl hst) (deadlineDue_idle hst)
  · exact execTick_of_not_due (.inr (by simp [hp])) (deadlineDue_early hp hearly)

/-- Settles O27: TMRFIRE needs the phase, the timer and the deadline, each of which one case denies. -/
theorem timeEventsAreRefusedWhenNotEnabled : Obligations.TimeEventsAreRefusedWhenNotEnabled := by
  refine ⟨fun s hdisabled => ?_, fun s r hst hp hdue => execTick_of_due hst hp hdue⟩
  rw [exec_tmrfire]
  obtain hrefused | ⟨hst, hnone, -⟩ | ⟨r, hst, htmr, hp, hdue, -⟩ := execTmrfire_cases s
  · exact hrefused
  · obtain hidle | hoff | ⟨r, hp, -⟩ := hdisabled
    · simp [hst] at hidle
    · simp [execTmrfire, hoff]
    · simp [hnone] at hp
  · obtain hidle | hoff | ⟨r', hp', hearly⟩ := hdisabled
    · simp [hst] at hidle
    · simp [htmr] at hoff
    · obtain rfl : r = r' := Option.some.inj (hp.symm.trans hp')
      rw [requestDue_iff] at hdue
      omega

/-- Settles O28. -/
theorem openAndCloseWriteOnlyThePortBit : Obligations.OpenAndCloseWriteOnlyThePortBit :=
  fun _ => ⟨rfl, rfl⟩

/-! #### DISPATCH by a host (R122) -/

theorem exec_dispatch (cmd sub : Int) (tmo : Millis) (desc : Desc) (allow wrOk : Bool) (s : State) :
    exec (.dispatch cmd sub tmo desc allow wrOk) s = .next (s.dispatch .host cmd sub tmo desc allow wrOk) := rfl

/-- A host's rejection is its REJECT and nothing more. -/
theorem State.refuse_host (s : State) (f : Failure) : s.refuse .host f = { s with trace := s.trace ++ [.reject f] } := rfl

/-- In Idle nobody waits. -/
theorem Coherent.caller_of_idle {s : State} (h : Coherent s) (hst : s.st = .idle) : s.caller = .host := by
  obtain ⟨-, -, -, hcaller⟩ := h
  exact hcaller hst

/-- In Idle the writes of a rejected write change nothing: by R28 they find the values they write (assumption log 19). -/
theorem Coherent.endRequest_of_idle {s : State} (h : Coherent s) (hst : s.st = .idle) : s.endRequest = s := by
  have hc : s.caller = .host := h.caller_of_idle hst
  obtain ⟨harmed, hsome, -, -⟩ := h
  have htmr : s.tmrArmed = false := by simpa [hst] using harmed
  have hp : s.p = none := by simpa [hst] using hsome
  rw [State.endRequest, ← hst, ← hp, ← htmr, ← hc]

/-- Settles O19, by the outcomes of DISPATCH in R122's order. -/
theorem dispatchRejectsInOrderOrSends : Obligations.DispatchRejectsInOrderOrSends := by
  intro cmd sub tmo desc allow wrOk s hcoh
  refine ⟨maskByte cmd, maskByte sub, maskByte_toNat cmd, maskByte_toNat sub, ?_⟩
  rw [exec_dispatch]
  congr 1
  obtain ⟨htmo, heq⟩ | ⟨htmo, hopen, heq⟩ | ⟨htmo, hopen, hst, heq⟩ | ⟨htmo, hopen, hst, hwr, heq⟩ |
    ⟨htmo, hopen, hst, hwr, heq⟩ := s.dispatch_cases .host cmd sub tmo desc allow wrOk <;> rw [heq]
  · rw [if_pos htmo, State.refuse_host]
  · rw [if_neg htmo.not_gt, if_pos hopen, State.refuse_host]
  · rw [if_neg htmo.not_gt, if_neg (by simp [hopen]), if_pos hst, State.refuse_host]
  · rw [if_neg htmo.not_gt, if_neg (by simp [hopen]), if_neg (by simp [hst]), if_pos hwr, State.refuse_host,
      hcoh.endRequest_of_idle hst]
  · rw [if_neg htmo.not_gt, if_neg (by simp [hopen]), if_neg (by simp [hst]), if_neg (by simp [hwr]),
      ← hcoh.caller_of_idle hst, encodeRequest_eq, complByte, complByte]

/-- With the port open, in Idle and with a legal timeout, a write the transport takes is a request sent. -/
theorem State.dispatch_of_open_idle {s : State} (hopen : s.portOpen = true) (hst : s.st = .idle) {tmo : Millis}
    (htmo : 1 ≤ tmo.toNat) (c : Caller) (cmd sub : Int) (desc : Desc) (allow : Bool) :
    s.dispatch c cmd sub tmo desc allow true = accepted s c desc allow tmo (encodeRequest cmd sub) := by
  simp [State.dispatch, htmo.not_gt, hopen, hst, State.startRequest_emit]

/-! #### The gate after a completion (R126, R133 P5) -/

/-- A frame, good or bad, leaves Idle and the port bit. -/
theorem idle_of_receive_full {s t : State} {chunk : List Byte} (hst : s.st = .awaitingReply)
    (hlen : 5 ≤ (s.rxbuf ++ chunk).length) (hs : s.receive chunk = .next t) :
    t.st = .idle ∧ t.portOpen = s.portOpen := by
  obtain ⟨hidle, -⟩ | ⟨hidle, -⟩ | ⟨-, hshort, -⟩ | ⟨-, -, -, heq⟩ | ⟨r, -, -, -, heq⟩ := s.receive_cases chunk
  · simp [hst] at hidle
  · simp [hst] at hidle
  · omega
  · rw [heq] at hs; cases hs
  · rw [heq] at hs; cases hs; simp

/-- A timeout leaves the port bit. -/
theorem portOpen_of_execTmrfire {s t : State} (hs : execTmrfire s = .next t) : t.portOpen = s.portOpen := by
  obtain heq | ⟨-, -, heq⟩ | ⟨r, -, -, -, -, heq⟩ := execTmrfire_cases s <;> rw [heq] at hs <;> cases hs
  simp

/-- Settles O38: either end of the request leaves Idle with the port still open. -/
theorem theGateReopensAfterEveryCompletion : Obligations.TheGateReopensAfterEveryCompletion := by
  intro s t chunk hst hopen hend cmd sub tmo desc allow htmo
  have ⟨htst, htopen⟩ : t.st = .idle ∧ t.portOpen = s.portOpen := by
    obtain ⟨hs, hlen⟩ | hs := hend
    · exact idle_of_receive_full hst hlen hs
    · exact ⟨st_idle_of_execTmrfire hs, portOpen_of_execTmrfire hs⟩
  refine ⟨encodeRequest cmd sub, ?_⟩
  rw [exec_dispatch, State.dispatch_of_open_idle (htopen.trans hopen) htst htmo]

/-! #### Requests sent and completions (R126, R133 P7) -/

@[simp] theorem txCount_append (l l' : List Output) : txCount (l ++ l') = txCount l + txCount l' :=
  List.countP_append

@[simp] theorem doneCount_append (l l' : List Output) : doneCount (l ++ l') = doneCount l + doneCount l' :=
  List.countP_append

theorem inFlight_idle {s : State} (hst : s.st = .idle) : inFlight s = 0 := by
  rw [inFlight, hst]

theorem inFlight_awaitingReply {s : State} (hst : s.st = .awaitingReply) : inFlight s = 1 := by
  rw [inFlight, hst]

/-- The pending requests are counted by the phase only. -/
theorem inFlight_congr {s t : State} (hst : t.st = s.st) : inFlight t = inFlight s := by
  rw [inFlight, inFlight, hst]

/-- `outs` holds neither a request sent nor a completion. -/
def NoTraffic (outs : List Output) : Prop := txCount outs = 0 ∧ doneCount outs = 0

theorem noTraffic_nil : NoTraffic [] := ⟨rfl, rfl⟩

/-- A DONE before outputs without traffic is one completion and no request. -/
theorem NoTraffic.done_cons {outs : List Output} (h : NoTraffic outs) (r : Result) :
    txCount (.done r :: outs) = 0 ∧ doneCount (.done r :: outs) = 1 := by
  obtain ⟨htx, hdone⟩ := h
  exact ⟨htx, by rw [← List.singleton_append, doneCount_append, hdone]; rfl⟩

theorem NoTraffic.reject_cons {outs : List Output} (h : NoTraffic outs) (f : Failure) : NoTraffic (.reject f :: outs) := h

/-- What a call or a poll returns is neither sent nor a completion. -/
theorem State.resume_trace (s : State) (c : Caller) (r : Result) :
    ∃ outs, NoTraffic outs ∧ (s.resume c r).trace = s.trace ++ outs := by
  obtain ⟨-, heq⟩ | ⟨k, -, heq⟩ | ⟨p, -, -, heq⟩ | ⟨p, -, -, heq⟩ := s.resume_cases c r <;> rw [heq]
  · exact ⟨[], noTraffic_nil, (List.append_nil _).symm⟩
  · exact ⟨_, ⟨rfl, rfl⟩, rfl⟩
  · exact ⟨_, ⟨rfl, rfl⟩, rfl⟩
  · exact ⟨[], noTraffic_nil, (List.append_nil _).symm⟩

/-! #### What a step can do to the pending request and the clock (R121)

The rows of R121 as four relations between the states before and after. They speak of the phase, `P`, NOW and the outputs only. -/

/-- No request is sent or ended. A rejected write clears a `P` that R28 forbids in Idle, hence the second case of `P`. -/
def RequestKept (s t : State) : Prop :=
  t.st = s.st ∧ (t.p = s.p ∨ t.p = none) ∧ t.now = s.now ∧ ∃ outs, NoTraffic outs ∧ t.trace = s.trace ++ outs

/-- A request is sent, created now. -/
def RequestSent (s t : State) : Prop :=
  s.st = .idle ∧ t.st = .awaitingReply ∧ (∃ r, t.p = some r ∧ r.t0 = t.now) ∧ ∃ frame, t.trace = s.trace ++ [.tx frame]

/-- The pending request ends with one DONE. -/
def RequestEnded (s t : State) : Prop :=
  s.st = .awaitingReply ∧ t.st = .idle ∧ t.p = none ∧
    ∃ r outs, NoTraffic outs ∧ t.trace = s.trace ++ .done r :: outs

/-- A millisecond passes, no deadline being due. -/
def ClockAdvanced (s t : State) : Prop :=
  deadlineDue s = false ∧ t.st = s.st ∧ t.p = s.p ∧ t.now = s.now + 1#64 ∧ t.trace = s.trace

/-- An output that is neither a request nor a completion keeps the request. -/
theorem requestKept_emit (s : State) {o : Output} (ho : NoTraffic [o]) : RequestKept s (s.emit o) :=
  ⟨rfl, .inl rfl, rfl, [o], ho, rfl⟩

theorem requestKept_of_eq {s t : State} (hst : t.st = s.st) (hp : t.p = s.p) (hnow : t.now = s.now)
    (htrace : t.trace = s.trace) : RequestKept s t :=
  ⟨hst, .inl hp, hnow, [], noTraffic_nil, by rw [htrace, List.append_nil]⟩

theorem requestKept_resume (s : State) (c : Caller) (r : Result) : RequestKept s (s.resume c r) :=
  ⟨s.resume_st c r, .inl (s.resume_p c r), s.resume_now c r, s.resume_trace c r⟩

theorem State.refuse_trace (s : State) (c : Caller) (f : Failure) :
    ∃ outs, NoTraffic outs ∧ (s.refuse c f).trace = s.trace ++ outs := by
  obtain ⟨outs, houts, htrace⟩ := ({ s with trace := s.trace ++ [.reject f] } : State).resume_trace c (.fail f)
  exact ⟨.reject f :: outs, houts.reject_cons f, by rw [State.refuse_eq, htrace]; simp⟩

theorem requestKept_refuse (s : State) (c : Caller) (f : Failure) : RequestKept s (s.refuse c f) :=
  ⟨by simp [State.refuse_eq], .inl (by simp [State.refuse_eq]), by simp [State.refuse_eq], s.refuse_trace c f⟩

/-- A rejected write writes Idle in Idle. -/
theorem requestKept_refuse_endRequest {s : State} (hst : s.st = .idle) (c : Caller) (f : Failure) :
    RequestKept s (s.endRequest.refuse c f) :=
  ⟨by simp [State.refuse_eq, hst], .inr (by simp [State.refuse_eq]), by simp [State.refuse_eq],
    s.endRequest.refuse_trace c f⟩

theorem requestEnded_finished_resume {s : State} (hst : s.st = .awaitingReply) (rx : List Byte) (c : Caller) (r : Result) :
    RequestEnded s ((finished s rx [.done r]).resume c r) := by
  obtain ⟨outs, houts, htrace⟩ := (finished s rx [.done r]).resume_trace c r
  exact ⟨hst, by simp, by simp, r, outs, houts, by rw [htrace]; simp⟩

section
variable (s : State)

/-- A request is sent only from Idle, when the tests of R122 have passed. -/
theorem State.dispatch_effect (c : Caller) (cmd sub : Int) (tmo : Millis) (desc : Desc) (allow wrOk : Bool) :
    RequestKept s (s.dispatch c cmd sub tmo desc allow wrOk) ∨
      RequestSent s (s.dispatch c cmd sub tmo desc allow wrOk) := by
  obtain ⟨-, heq⟩ | ⟨-, -, heq⟩ | ⟨-, -, -, heq⟩ | ⟨-, -, hst, -, heq⟩ | ⟨-, -, hst, -, heq⟩ :=
    s.dispatch_cases c cmd sub tmo desc allow wrOk <;> rw [heq]
  · exact .inl (requestKept_refuse s c _)
  · exact .inl (requestKept_refuse s c _)
  · exact .inl (requestKept_refuse s c _)
  · exact .inl (requestKept_refuse_endRequest hst c _)
  · exact .inr ⟨hst, rfl, ⟨_, rfl, rfl⟩, _, rfl⟩

theorem State.issue_effect (w : Caller) (c : Call) (tmo : Millis) (wrOk : Bool) :
    RequestKept s (s.issue w c tmo wrOk) ∨ RequestSent s (s.issue w c tmo wrOk) := by
  obtain ⟨f, -, heq⟩ | ⟨-, heq⟩ := s.issue_cases w c tmo wrOk <;> rw [heq]
  · exact .inl (requestKept_resume s w _)
  · exact s.dispatch_effect ..

/-- A poll that leaves the list of the paused ones changes nothing these relations speak of. -/
theorem State.pollTurn_effect (index : Nat) (wrOk : Bool) :
    RequestKept s (s.pollTurn index wrOk) ∨ RequestSent s (s.pollTurn index wrOk) := by
  obtain heq | ⟨p, -, -, heq⟩ := s.pollTurn_cases index wrOk <;> rw [heq]
  · exact .inl (requestKept_of_eq rfl rfl rfl rfl)
  · exact State.issue_effect { s with polls := s.polls.eraseIdx index } ..

variable {s} {t : State}

theorem receive_effect {chunk : List Byte} (hs : s.receive chunk = .next t) : RequestKept s t ∨ RequestEnded s t := by
  obtain ⟨-, -, heq⟩ | ⟨-, -, heq⟩ | ⟨-, -, heq⟩ | ⟨-, -, -, heq⟩ | ⟨r, hst, -, -, heq⟩ := s.receive_cases chunk <;>
    rw [heq] at hs <;> cases hs
  · exact .inl (requestKept_of_eq rfl rfl rfl rfl)
  · exact .inl (requestKept_emit s ⟨rfl, rfl⟩)
  · exact .inl (requestKept_of_eq rfl rfl rfl rfl)
  · exact .inr (requestEnded_finished_resume hst ..)

theorem execTmrfire_effect (hs : execTmrfire s = .next t) : RequestEnded s t := by
  obtain heq | ⟨-, -, heq⟩ | ⟨r, hst, -, -, -, heq⟩ := execTmrfire_cases s <;> rw [heq] at hs <;> cases hs
  exact requestEnded_finished_resume hst ..

theorem execTick_effect (hs : execTick s = .next t) : ClockAdvanced s t := by
  obtain ⟨-, -, heq⟩ | ⟨-, heq⟩ | ⟨hdue, heq⟩ := execTick_cases s <;> rw [heq] at hs <;> cases hs
  exact ⟨hdue, rfl, rfl, rfl, rfl⟩

/-- What an operation can do to the pending request and the clock. RESET alone drops a request without a completion (R133 P7). -/
theorem exec_effect {i : Instr} (hs : exec i s = .next t) :
    (i = .reset ∧ t.p = none) ∨ RequestKept s t ∨ RequestSent s t ∨ RequestEnded s t ∨ ClockAdvanced s t := by
  obtain ⟨v, heq⟩ | ⟨hi, heq⟩ | ⟨b, heq⟩ | ⟨-, heq⟩ | ⟨-, heq⟩ | ⟨chunk, -, heq⟩ |
    ⟨cmd, sub, tmo, desc, allow, wrOk, -, heq⟩ | ⟨c, tmo, wrOk, heq⟩ | ⟨m, delay, tmo, wrOk, -, heq⟩ :=
    exec_cases i s <;> rw [heq] at hs
  · cases hs; exact .inr (.inl (requestKept_emit s ⟨rfl, rfl⟩))
  · cases hs; exact .inl ⟨hi, rfl⟩
  · cases hs; exact .inr (.inl (requestKept_of_eq rfl rfl rfl rfl))
  · exact .inr (.inr (.inr (.inl (execTmrfire_effect hs))))
  · exact .inr (.inr (.inr (.inr (execTick_effect hs))))
  · exact .inr ((receive_effect hs).imp_right (.inr ∘ .inl))
  · cases hs; exact .inr ((s.dispatch_effect ..).imp_right .inl)
  · cases hs; exact .inr ((s.issue_effect ..).imp_right .inl)
  · cases hs; exact .inr ((s.issue_effect ..).imp_right .inl)

/-- What a step can do to the pending request and the clock; taking the event from the list touches neither. -/
theorem step_effect (hs : step s = .next t) :
    (∃ w rest, s.input = .word w :: rest ∧ decode w = .ok .reset ∧ t.p = none) ∨
      RequestKept s t ∨ RequestSent s t ∨ RequestEnded s t ∨ ClockAdvanced s t := by
  obtain ⟨-, heq⟩ | ⟨index, wrOk, rest, -, heq⟩ | ⟨w, e, rest, -, -, heq⟩ | ⟨w, i, rest, hin, hd, heq⟩ :=
    step_cases s <;> rw [heq] at hs
  · cases hs; exact .inr (.inl (requestKept_of_eq rfl rfl rfl rfl))
  · cases hs; exact .inr ((State.pollTurn_effect { s with input := rest } ..).imp_right .inl)
  · cases hs
  · obtain ⟨rfl, hp⟩ | heffect := exec_effect hs
    · exact .inl ⟨w, rest, hin, hd, hp⟩
    · exact .inr heffect

end

/-- Settles O36: a request sent raises the requests in flight by one, a completion lowers them by one, and nothing else counts. -/
theorem everyAcceptedRequestCompletesOnce : Obligations.EveryAcceptedRequestCompletesOnce := by
  intro s t hs hnoReset
  obtain ⟨w, rest, hin, hd, -⟩ | ⟨hst, -, -, outs, ⟨htx, hdone⟩, htrace⟩ | ⟨hidle, hawait, -, frame, htrace⟩ |
    ⟨hawait, hidle, -, r, outs, houts, htrace⟩ | ⟨-, hst, -, -, htrace⟩ := step_effect hs
  · exact absurd hd (hnoReset w rest hin)
  · rw [htrace, inFlight_congr hst, txCount_append, doneCount_append]
    omega
  · have htx : txCount [.tx frame] = 1 := rfl
    have hdone : doneCount [.tx frame] = 0 := rfl
    rw [htrace, inFlight_idle hidle, inFlight_awaitingReply hawait, txCount_append, doneCount_append]
    omega
  · obtain ⟨htx, hdone⟩ := houts.done_cons r
    rw [htrace, inFlight_idle hidle, inFlight_awaitingReply hawait, txCount_append, doneCount_append]
    omega
  · rw [htrace, inFlight_congr hst]
    omega

/-! #### The age of the pending request (R127 case b, R128, D6) -/

@[simp] theorem elapsedSince_self (t : Time) : elapsedSince t t = 0#64 := sub_self t

/-- While a request is not older than its timeout the difference of times does not wrap: a timeout has 32 bits, a time 64. -/
theorem elapsedSince_add {t0 now : Time} {tmo : Millis} {n : Nat}
    (h : (elapsedSince t0 now).toNat + n ≤ tmo.toNat) :
    (elapsedSince t0 (now + BitVec.ofNat 64 n)).toNat = (elapsedSince t0 now).toNat + n := by
  have htmo := tmo.isLt
  have hsum : elapsedSince t0 (now + BitVec.ofNat 64 n) = elapsedSince t0 now + BitVec.ofNat 64 n :=
    add_sub_right_comm now (BitVec.ofNat 64 n) t0
  rw [hsum, BitVec.toNat_add, BitVec.toNat_ofNat]
  omega

/-- I1 and I2: a request that is there awaits its reply, with its timer armed. -/
theorem Coherent.armed_of_p {s : State} {r : Pending} (h : Coherent s) (hp : s.p = some r) :
    s.st = .awaitingReply ∧ s.tmrArmed = true := by
  obtain ⟨harmed, hsome, -, -⟩ := h
  have hst : s.st = .awaitingReply := hsome.mp (by simp [hp])
  exact ⟨hst, harmed.mpr hst⟩

/-- A TICK that is enabled leaves the request at most at its timeout. -/
theorem Coherent.onTime_of_clockAdvanced {s t : State} (hcoh : Coherent s) (h : ClockAdvanced s t) : OnTime t := by
  obtain ⟨hdue, -, hp, hnow, -⟩ := h
  intro r hr
  have hps : s.p = some r := hp ▸ hr
  have hearly : (elapsedSince r.t0 s.now).toNat + 1 ≤ r.tmo.toNat := by
    by_contra hlate
    have hoverdue : deadlineDue s = true :=
      (deadlineDue_iff s r hps).mpr ⟨(hcoh.armed_of_p hps).1, Nat.le_of_not_lt hlate⟩
    simp [hdue] at hoverdue
  rw [hnow, elapsedSince_add hearly]
  exact hearly

/-- No step makes a pending request older than its timeout: only TICK lets it age, and TICK stops at the deadline. -/
theorem OnTime.after_step {s t : State} (hcoh : Coherent s) (hon : OnTime s) (hs : step s = .next t) : OnTime t := by
  have onTime_of_none (hp : t.p = none) : OnTime t := by simp [OnTime, hp]
  obtain ⟨-, -, -, -, hp⟩ | ⟨-, hp | hp, hnow, -⟩ | ⟨-, -, ⟨r, hp, ht0⟩, -⟩ | ⟨-, -, hp, -⟩ | htick := step_effect hs
  · exact onTime_of_none hp
  · simpa [OnTime, hp, hnow] using hon
  · exact onTime_of_none hp
  · simp [OnTime, hp, ht0]
  · exact onTime_of_none hp
  · exact hcoh.onTime_of_clockAdvanced htick

/-- Settles O35: a timer that fires is due, and a request on time is not overdue. -/
theorem theTimerFiresExactlyOnTime : Obligations.TheTimerFiresExactlyOnTime := by
  refine ⟨fun s t hcoh hon hs => hon.after_step hcoh hs, fun s t hon hs => ?_⟩
  rw [exec_tmrfire] at hs
  obtain heq | ⟨-, -, heq⟩ | ⟨r, -, -, hp, hdue, -⟩ := execTmrfire_cases s
  · simp [heq] at hs
  · simp [heq] at hs
  · exact ⟨r, hp, Nat.le_antisymm (hon r hp) ((requestDue_iff r s.now).mp hdue)⟩

/-! #### Progress by ticks (R131) -/

/-- A TICK that is the next event is processed where it is enabled. -/
theorem step_tickWord {s : State} {r : Pending} {rest : List InputEvent} (hin : s.input = tickWord :: rest)
    (hp : s.p = some r) (hearly : (s.now - r.t0).toNat < r.tmo.toNat) :
    step s = .next { s with now := s.now + 1#64, input := rest } := by
  have hd : decode (encode .tick) = .ok .tick := decodeReadsBackEveryEncodedOperation .tick rfl
  rw [step_of_decoded_word hin hd, exec_tick]
  exact execTick_of_not_due (s := { s with input := rest }) (.inr (by simp [hp])) (deadlineDue_early hp hearly)

theorem run_succ_of_step {M : Host.Core} {s t : M.State} (hs : M.step s = .next t) (n : Nat) :
    M.run (n + 1) s = M.run n t := by
  rw [Host.Core.run, hs]

/-- Ticks up to the deadline are all processed. -/
theorem run_ticks {r : Pending} {rest : List InputEvent} (n : Nat) : ∀ s : State, s.p = some r →
    (elapsedSince r.t0 s.now).toNat + n ≤ r.tmo.toNat → s.input = List.replicate n tickWord ++ rest →
      Host.Core.run Sys2Proof.core n s =
        .next ({ s with now := s.now + BitVec.ofNat 64 n, input := rest } : State) := by
  induction n with
  | zero =>
    intro s _ _ hin
    obtain rfl : s.input = rest := hin
    simp [Host.Core.run]
  | succ n ih =>
    intro s hp hleft hin
    have hearly : (elapsedSince r.t0 s.now).toNat + 1 ≤ r.tmo.toNat := by omega
    have hnow : s.now + 1#64 + BitVec.ofNat 64 n = s.now + BitVec.ofNat 64 (n + 1) := by
      rw [add_assoc, ← BitVec.ofNat_add, Nat.add_comm]
    have hleft' : (elapsedSince r.t0 (s.now + 1#64)).toNat + n ≤ r.tmo.toNat := by
      rw [elapsedSince_add hearly]; omega
    rw [run_succ_of_step (M := Sys2Proof.core) (step_tickWord hin hp hearly), ← hnow]
    exact ih { s with now := s.now + 1#64, input := List.replicate n tickWord ++ rest } hp hleft' rfl

/-- Settles O37: the ticks left bring the age to the timeout, where TICK is disabled and TMRFIRE enabled. -/
theorem ticksBringTheTimeoutAbout : Obligations.TicksBringTheTimeoutAbout := by
  intro s r rest n hcoh hon hp hn hin due
  have hage : (elapsedSince r.t0 s.now).toNat ≤ r.tmo.toNat := hon r hp
  have hleft : (elapsedSince r.t0 s.now).toNat + n = r.tmo.toNat := by
    rw [hn]; exact Nat.add_sub_of_le hage
  have helapsed : (due.now - r.t0).toNat = r.tmo.toNat := (elapsedSince_add hleft.le).trans hleft
  have hexact : due.now - r.t0 = BitVec.ofNat 64 r.tmo.toNat := by rw [← helapsed, BitVec.ofNat_toNat, BitVec.setWidth_eq]
  have ⟨hst, htmr⟩ : due.st = .awaitingReply ∧ due.tmrArmed = true := hcoh.armed_of_p hp
  refine ⟨run_ticks n s hp hleft.le hin, execTick_of_due hst hp helapsed.ge, ?_⟩
  obtain ⟨polls, more, hfire⟩ := (tmrfireEndsTheRequestWithCommTimeout due r hst htmr hp helapsed.ge).1
  rw [hexact] at hfire
  exact ⟨_, more, hfire, rfl, rfl, rfl⟩

end Sys2Proof.Machine

/-! ### 43_command_catalog.md: VALIDATE (R150), EXEC (R151), the rows of the descriptor table (R152 to R180, R182) -/

namespace Sys2Proof.Machine

/-! #### The operands of a call (R150, R151, D19) -/

section
variable {c : Call} {tmo : Option Millis}

/-- The two spellings of a call's timeout, by the call and by its operation, are one number (R151). -/
theorem callTmo_eq_tmoOf (c : Call) (tmo : Option Millis) : callTmo c tmo = tmoOf (callOp c) tmo := by
  cases tmo <;> rfl

/-- Every default timeout is legal (D19). -/
theorem one_le_defaultTmo (op : CatalogOp) : 1 ≤ (defaultTmo op).toNat := by
  unfold defaultTmo
  split
  case isTrue => decide
  case isFalse hne => exact Nat.pos_of_ne_zero fun h => hne (BitVec.eq_of_toNat_eq h)

theorem one_le_callTmo (c : Call) (htmo : tmoOk tmo) : 1 ≤ (callTmo c tmo).toNat := by
  cases tmo with
  | none => exact one_le_defaultTmo (callOp c)
  | some t => exact htmo t rfl

/-- A call is free of channel errors when its channel, if it takes one, is in 1..80 (R150). -/
theorem channelOk_of_range (hch : ∀ op ch, c = .channel op ch → 1 ≤ ch ∧ ch ≤ 80) : channelOk c = true := by
  cases c with
  | channel op ch => exact (channelOk_iff op ch).mpr (hch op ch rfl)
  | plain op => rfl
  | value op v => rfl
  | toggle op on => rfl

/-- VALIDATE looks at the channel first, whatever the timeout (R150). -/
theorem validate_of_channel_out_of_range {ch : Int} (hch : ch < 1 ∨ 80 < ch) (op : ChannelOp) (t : Millis) :
    validate (.channel op ch) t = some (.invalidArgument (.channel ch)) := by
  have hbad : channelOk (.channel op ch) = false := by
    rw [← Bool.not_eq_true, channelOk_iff]; omega
  rw [validate, if_pos hbad]

/-- VALIDATE looks at the timeout when the channel passed (R150). -/
theorem validate_of_timeout_zero (hch : channelOk c = true) :
    validate c 0#32 = some (.invalidArgument (.timeout 0#32)) := by
  cases c with
  | channel op ch => rw [validate, if_neg (by simp [hch])]; rfl
  | plain op => rfl
  | value op v => rfl
  | toggle op on => rfl

end

/-! #### What a catalog instruction does (R151) -/

section
variable {s : State} {c : Call} {tmo : Option Millis}

/-- A call that fails VALIDATE returns the failure and does nothing else. -/
theorem exec_callInstr_of_invalid {f : Failure} (hval : validate c (callTmo c tmo) = some f) (wrOk : Bool) :
    exec (callInstr c tmo wrOk) s = .next { s with trace := s.trace ++ [.returned c (.fail f)] } := by
  rw [exec_callInstr, State.invoke, State.issue, hval]
  rfl

/-- A call that passes VALIDATE makes one DISPATCH with the operands of its row. -/
theorem exec_callInstr_of_valid (hch : channelOk c = true) (htmo : tmoOk tmo) (wrOk : Bool) :
    exec (callInstr c tmo wrOk) s = .next (s.dispatch (.call c) (callCmd c) (callSub c) (callTmo c tmo)
      (Config.descOf c) (callAllow c) wrOk) := by
  have hval : validate c (callTmo c tmo) = none := (validate_eq_none_iff c _).mpr ⟨hch, one_le_callTmo c htmo⟩
  rw [exec_callInstr, State.invoke, State.issue, hval]

/-- A valid call with the port open, the gate free and a write the transport takes sends the frame of its row's two bytes. -/
theorem exec_callInstr_sent {cmd sub : Byte} (hcmd : maskByte (callCmd c) = cmd) (hsub : maskByte (callSub c) = sub)
    (hch : channelOk c = true) (htmo : tmoOk tmo) (hopen : s.portOpen = true) (hst : s.st = .idle) :
    exec (callInstr c tmo true) s = .next (accepted s (.call c) (Config.descOf c) (callAllow c) (tmoOf (callOp c) tmo)
      (requestFrame cmd sub)) := by
  rw [exec_callInstr_of_valid hch htmo, State.dispatch_of_open_idle hopen hst (one_le_callTmo c htmo), callTmo_eq_tmoOf,
    encodeRequest_eq, hcmd, hsub, complByte, complByte]

end

/-- Settles O43: VALIDATE answers, the channel first. -/
theorem validationRefusesBeforeAnyDispatch : Obligations.ValidationRefusesBeforeAnyDispatch :=
  ⟨fun op _ _ wrOk _ hch => exec_callInstr_of_invalid (validate_of_channel_out_of_range hch op _) wrOk,
    fun _ wrOk _ hch => exec_callInstr_of_invalid (validate_of_timeout_zero (channelOk_of_range hch)) wrOk⟩

/-! #### A rejected call (R151, 42_correlator.md R122) -/

section
variable {s : State} {t : Millis} {c : Caller} {cmd sub : Int} {desc : Desc} {allow : Bool}

theorem State.dispatch_of_closed (ht : 1 ≤ t.toNat) (hclosed : s.portOpen = false) (wrOk : Bool) :
    s.dispatch c cmd sub t desc allow wrOk = s.refuse c (.portNotOpen .closed) := by
  rw [State.dispatch, if_neg ht.not_gt, if_pos hclosed]

theorem State.dispatch_of_busy (ht : 1 ≤ t.toNat) (hopen : s.portOpen = true) (hst : s.st = .awaitingReply)
    (wrOk : Bool) : s.dispatch c cmd sub t desc allow wrOk = s.refuse c (.invalidArgument .requestInProgress) := by
  rw [State.dispatch, if_neg ht.not_gt, if_neg (by simp [hopen]), if_pos hst]

theorem State.dispatch_of_write_rejected (ht : 1 ≤ t.toNat) (hopen : s.portOpen = true) (hst : s.st = .idle) :
    s.dispatch c cmd sub t desc allow false = s.endRequest.refuse c (.portNotOpen .writeRejected) := by
  rw [State.dispatch, if_neg ht.not_gt, if_neg (by simp [hopen]), if_neg (by simp [hst]), if_pos rfl]

end

/-- A rejected call returns the failure after its REJECT, and nothing else changes. -/
theorem State.refuse_call (s : State) (c : Call) (f : Failure) : s.refuse (.call c) f =
    { s with trace := s.trace ++ [.reject f, .returned c (.fail f)] } := by
  simp [State.refuse_eq, State.resume, State.emit, callResult]

/-- Settles O44, by DISPATCH's tests in their order. -/
theorem aRejectedCallReturnsTheRejection : Obligations.ARejectedCallReturnsTheRejection := by
  intro c tmo wrOk s htmo hch
  have ht : 1 ≤ (callTmo c tmo).toNat := one_le_callTmo c htmo
  have hexec (wr : Bool) : exec (callInstr c tmo wr) s = .next (s.dispatch (.call c) (callCmd c) (callSub c)
      (callTmo c tmo) (Config.descOf c) (callAllow c) wr) := exec_callInstr_of_valid (channelOk_of_range hch) htmo wr
  refine ⟨fun hclosed => ?_, fun hopen hst => ?_, fun hopen hst => ?_⟩
  · rw [hexec, State.dispatch_of_closed ht hclosed, State.refuse_call]
  · rw [hexec, State.dispatch_of_busy ht hopen hst, State.refuse_call]
  · rw [hexec, State.dispatch_of_write_rejected ht hopen hst, State.refuse_call]
    rfl

/-! #### The frame each row sends (R153 to R180) -/

/-- MASK8 of a natural number (40_frame_codec.md R90). -/
theorem maskByte_natCast (n : Nat) : maskByte (n : Int) = BitVec.ofNat 8 n := BitVec.ofInt_natCast 8 n

theorem channelOk_natCast {n : Nat} (hmin : 1 ≤ n) (hmax : n ≤ 80) (op : ChannelOp) : channelOk (.channel op n) = true := by
  rw [channelOk_iff]; omega

/-- The command byte of CHEXISTS is 0x78 + channel (30_encoding.md R66). -/
theorem maskByte_callCmd_chExists (n : Nat) : maskByte (callCmd (.channel .chExists n)) = BitVec.ofNat 8 (0x78 + n) :=
  maskByte_natCast (0x78 + n)

/-- A toggle's marker bytes are one of the two pairs, whatever its open parameter is (30_encoding.md R64, D34). -/
theorem toggleMarker_pair (op : ToggleOp) :
    (toggleMarker op true = 0x01#8 ∧ toggleMarker op false = 0x00#8) ∨
      (toggleMarker op true = 0xAA#8 ∧ toggleMarker op false = 0x55#8) := by
  cases huses : Config.toggleUsesAA op with
  | false => exact .inl (by simp [toggleMarker, huses])
  | true => exact .inr (by simp [toggleMarker, huses])

/-- Settles O45. -/
theorem vendsSendTheirMarkers : Obligations.VendsSendTheirMarkers := by
  intro ch tmo s hmin hmax htmo hopen hst
  have hch (op : ChannelOp) : channelOk (.channel op ch) = true := (channelOk_iff op ch).mpr ⟨hmin, hmax⟩
  exact ⟨exec_callInstr_sent (c := .channel .vend ch) (maskByte_byte _) (maskByte_byte _) (hch .vend) htmo hopen hst,
    exec_callInstr_sent (c := .channel .vendChk ch) (maskByte_byte _) (maskByte_byte _) (hch .vendChk) htmo hopen hst⟩

/-- An operation without an argument sends its open command byte and the byte of its row. -/
theorem exec_plain_sent {op : PlainOp} {sub : Byte} {tmo : Option Millis} {s : State}
    (hsub : callSub (.plain op) = sub.toNat) (htmo : tmoOk tmo) (hopen : s.portOpen = true) (hst : s.st = .idle) :
    exec (callInstr (.plain op) tmo true) s = .next (accepted s (.call (.plain op)) (Config.descOf (.plain op))
      (callAllow (.plain op)) (tmoOf (.plain op) tmo) (requestFrame (Config.cmdPlain op) sub)) :=
  exec_callInstr_sent (maskByte_byte _) (by rw [hsub, maskByte_byte]) rfl htmo hopen hst

/-- Settles O46. -/
theorem wholeMachineOperationsSendTheNoParameterMarker : Obligations.WholeMachineOperationsSendTheNoParameterMarker := by
  intro tmo s htmo hopen hst
  exact ⟨exec_plain_sent (op := .selfTest) rfl htmo hopen hst, exec_plain_sent (op := .resetAll) rfl htmo hopen hst,
    exec_plain_sent (op := .allSpring) rfl htmo hopen hst, exec_plain_sent (op := .allBelt) rfl htmo hopen hst,
    exec_plain_sent (op := .allSingle) rfl htmo hopen hst⟩

/-- Settles O47. -/
theorem repeatAndChexistsSetAllow : Obligations.RepeatAndChexistsSetAllow := by
  intro tmo s htmo hopen hst
  refine ⟨exec_plain_sent (op := .repeatLast) rfl htmo hopen hst, fun n hmin hmax => ?_⟩
  exact exec_callInstr_sent (maskByte_callCmd_chExists n) (maskByte_natCast n) (channelOk_natCast hmin hmax .chExists)
    htmo hopen hst

/-- Settles O48. -/
theorem topologyOperationsSendTheChannel : Obligations.TopologyOperationsSendTheChannel := by
  intro n tmo s hmin hmax htmo hopen hst
  have hsent {op : ChannelOp} {cmd : Byte} (hcmd : callCmd (.channel op n) = cmd.toNat)
      (hsub : callSub (.channel op n) = n) : exec (callInstr (.channel op n) tmo true) s =
        .next (accepted s (.call (.channel op n)) (Config.descOf (.channel op n)) (callAllow (.channel op n))
          (tmoOf (.channel op) tmo) (requestFrame cmd (BitVec.ofNat 8 n))) :=
    exec_callInstr_sent (by rw [hcmd, maskByte_byte]) (by rw [hsub, maskByte_natCast])
      (channelOk_natCast hmin hmax op) htmo hopen hst
  exact ⟨hsent (op := .setBelt) rfl rfl, hsent (op := .setSpring) rfl rfl, hsent (op := .mkSingle) rfl rfl,
    hsent (op := .mkDouble) rfl rfl⟩

/-- Settles O49: the byte is MASK8 of the number, for any of the operations that take one. -/
theorem settersSendTheMaskedNumber : Obligations.SettersSendTheMaskedNumber := by
  intro v tmo s htmo hopen hst
  have hsent (op : ValueOp) : exec (callInstr (.value op v) tmo true) s = .next (accepted s (.call (.value op v))
      (Config.descOf (.value op v)) false (tmoOf (.value op) tmo) (requestFrame (Config.cmdValue op) (maskByte v))) :=
    exec_callInstr_sent (maskByte_byte _) rfl rfl htmo hopen hst
  exact ⟨maskByte v, maskByte_toNat v, hsent .setPoint, hsent .hyst, hsent .comp, hsent .defrost, hsent .compRun,
    hsent .fanDelay, hsent .thermoMode⟩

/-- Settles O50: the pair depends on the operation's open parameter and on nothing in the state. -/
theorem togglesSendOneMarkerPair : Obligations.TogglesSendOneMarkerPair := by
  refine ⟨toggleMarker, toggleMarker_pair, fun on tmo s htmo hopen hst => ?_⟩
  have hsent (op : ToggleOp) : exec (callInstr (.toggle op on) tmo true) s = .next (accepted s (.call (.toggle op on))
      (Config.descOf (.toggle op on)) false (tmoOf (.toggle op) tmo)
      (requestFrame (Config.cmdToggle op) (toggleMarker op on))) :=
    exec_callInstr_sent (maskByte_byte _) (maskByte_byte _) rfl htmo hopen hst
  exact ⟨hsent .glassHeat, hsent .light, hsent .buzzer, hsent .tempCtl⟩

/-- Settles O51. -/
theorem readsAndActuatorsSendTheirParameter : Obligations.ReadsAndActuatorsSendTheirParameter := by
  intro tmo s htmo hopen hst
  exact ⟨exec_plain_sent (op := .rdTemp) rfl htmo hopen hst, exec_plain_sent (op := .rdDoor) rfl htmo hopen hst,
    exec_plain_sent (op := .openDoor) rfl htmo hopen hst, exec_plain_sent (op := .accelEn) rfl htmo hopen hst⟩

/-! #### What a call returns for the end of its request (R151, R182) -/

/-- The signed result byte is the byte in two's complement (30_encoding.md R67). -/
theorem signedByte_eq_toInt (d : Byte) : signedByte d = d.toInt := by
  rw [signedByte, BitVec.toInt_eq_toNat_cond]
  split <;> split <;> omega

/-- The door is open exactly at data 0x01 (30_encoding.md R68). -/
theorem interpret_rdDoor (f : Frame) :
    interpret (.plain .rdDoor) f = .door (if f.data == 0x01#8 then .opened else .closed) := by
  by_cases h : f.data = 0x01#8 <;> simp [interpret, Config.doorOpenData, h]

theorem interpret_rdTemp (f : Frame) : interpret (.plain .rdTemp) f = .temperature f.data.toInt := by
  rw [interpret, signedByte_eq_toInt]

/-- A waiting call returns its reading of the result right after DONE (assumption logs 5 and 24). -/
theorem State.resume_call_finished (s : State) (rx : List Byte) (c : Call) (r : Result) :
    (finished s rx [.done r]).resume (.call c) r = finished s rx [.done r, .returned c (callResult c r)] := by
  simp [State.resume, State.emit]

section
variable {s : State} {r : Pending} {c : Call}

/-- A frame ends the request of a call and the call with it. -/
theorem exec_rxchunk_of_call {chunk : List Byte} {result : Result} (hst : s.st = .awaitingReply) (hp : s.p = some r)
    (hc : s.caller = .call c) (hlen : 5 ≤ (s.rxbuf ++ chunk).length)
    (hcls : classify ((s.rxbuf ++ chunk).take 5) r.allow = result) :
    exec (.rxchunk chunk) s = .next (finished s ((s.rxbuf ++ chunk).drop 5)
      [.done result, .returned c (callResult c result)]) := by
  rw [exec_rxchunk, State.receive_full hst hlen hp, hcls, hc, State.resume_call_finished]

end

/-- Settles O52: the call returns its `interpret`, which is read row by row. -/
theorem okRepliesAreInterpreted : Obligations.OkRepliesAreInterpreted := by
  intro s r c chunk f hst hp hc hlen hcls
  have hexec := exec_rxchunk_of_call hst hp hc hlen hcls
  cases c with
  | channel op ch => cases op <;> exact hexec
  | plain op =>
    cases op
    case rdTemp => rw [callResult, interpret_rdTemp] at hexec; exact hexec
    case rdDoor => rw [callResult, interpret_rdDoor] at hexec; exact hexec
    all_goals exact hexec
  | value op v => exact hexec
  | toggle op on => exact hexec

/-- Settles O53: `callResult` hands a failure on as it is. -/
theorem failedCallsReturnTheFailureUnchanged : Obligations.FailedCallsReturnTheFailureUnchanged := by
  intro s r c hst hp hc
  refine ⟨fun chunk e hlen hcls => exec_rxchunk_of_call hst hp hc hlen hcls, fun htmr hdue => ?_⟩
  rw [exec_tmrfire, execTmrfire_of_due hst htmr hp hdue, hc, State.resume_call_finished]
  rfl

end Sys2Proof.Machine

/-! ### 44_channel_poller.md: POLL and its turns (R200 to R203), what a probe leaves behind (R204), one entry per channel (R205) -/

namespace Sys2Proof.Machine

/-! #### A probe by the outcome of its CHEXISTS (R200, R203) -/

/-- A poll that is refused resumes after its REJECT (assumption log 24). -/
theorem State.refuse_poll (s : State) (p : PollCall) (f : Failure) : s.refuse (.poll p) f =
    ({ s with trace := s.trace ++ [.reject f] } : State).probeReturned p (.fail f) := rfl

section
variable (s : State) {p : PollCall}

/-- A timeout of 0 ends the probe at VALIDATE, before any DISPATCH (R203). -/
theorem State.probe_of_timeout_zero (hmin : 1 ≤ p.channel) (hmax : p.channel ≤ 80) (htmo : p.tmo = 0#32) (wrOk : Bool) :
    s.probe p wrOk = s.probeReturned p (.fail (.invalidArgument (.timeout 0#32))) := by
  rw [State.probe, State.issue, htmo, validate_of_timeout_zero (channelOk_natCast hmin hmax .chExists)]
  rfl

section
variable (hmin : 1 ≤ p.channel) (hmax : p.channel ≤ 80) (htmo : 1 ≤ p.tmo.toNat)
include hmin hmax htmo

/-- A probe with a legal timeout is one DISPATCH. -/
theorem State.probe_of_valid (wrOk : Bool) : s.probe p wrOk =
    s.dispatch (.poll p) (callCmd (.channel .chExists p.channel)) (callSub (.channel .chExists p.channel)) p.tmo
      (Config.descOf (.channel .chExists p.channel)) true wrOk := by
  have hval : validate (.channel .chExists p.channel) p.tmo = none :=
    (validate_eq_none_iff _ _).mpr ⟨channelOk_natCast hmin hmax .chExists, htmo⟩
  rw [State.probe, State.issue, hval]
  rfl

/-- The frame of a probe: 0x78 + channel, then the channel (30_encoding.md R66). -/
theorem State.probe_sent (hopen : s.portOpen = true) (hst : s.st = .idle) : s.probe p true =
    accepted s (.poll p) (Config.descOf (.channel .chExists p.channel)) true p.tmo
      (requestFrame (BitVec.ofNat 8 (0x78 + p.channel)) (BitVec.ofNat 8 p.channel)) := by
  have hsub : maskByte (callSub (.channel .chExists p.channel)) = BitVec.ofNat 8 p.channel := maskByte_natCast p.channel
  rw [s.probe_of_valid hmin hmax htmo, State.dispatch_of_open_idle hopen hst htmo, encodeRequest_eq,
    maskByte_callCmd_chExists, hsub, complByte, complByte]

theorem State.probe_of_closed (hclosed : s.portOpen = false) (wrOk : Bool) : s.probe p wrOk =
    ({ s with trace := s.trace ++ [.reject (.portNotOpen .closed)] } : State).probeReturned p
      (.fail (.portNotOpen .closed)) := by
  rw [s.probe_of_valid hmin hmax htmo, State.dispatch_of_closed htmo hclosed, State.refuse_poll]

theorem State.probe_of_busy (hopen : s.portOpen = true) (hst : s.st = .awaitingReply) (wrOk : Bool) : s.probe p wrOk =
    ({ s with trace := s.trace ++ [.reject (.invalidArgument .requestInProgress)] } : State).probeReturned p
      (.fail (.invalidArgument .requestInProgress)) := by
  rw [s.probe_of_valid hmin hmax htmo, State.dispatch_of_busy htmo hopen hst, State.refuse_poll]

/-- A rejected write makes the writes of R121's row (assumption log 19), of which Idle is one that changes nothing. -/
theorem State.probe_of_write_rejected (hopen : s.portOpen = true) (hst : s.st = .idle) : s.probe p false =
    { ({ s with trace := s.trace ++ [.reject (.portNotOpen .writeRejected)] } : State).probeReturned p
        (.fail (.portNotOpen .writeRejected)) with p := none, tmrArmed := false, caller := .host } := by
  rw [s.probe_of_valid hmin hmax htmo, State.dispatch_of_write_rejected htmo hopen hst, State.refuse_poll,
    State.probeReturned, State.probeReturned]
  split <;> simp [State.endRequest, State.emit, hst]

end

end

/-! #### POLL (R200, R201) -/

/-- The locals POLL creates. -/
def firstProbe (maxChannel : Int) (delay tmo : Millis) (now : Time) : PollCall :=
  ⟨clampChannel maxChannel, delay, tmo, 1, [], now⟩

/-- The clamp makes the locals of a new POLL consistent, so its channel is one VALIDATE takes (R201). -/
theorem firstProbe_consistent (maxChannel : Int) (delay tmo : Millis) (now : Time) :
    (firstProbe maxChannel delay tmo now).Consistent := by
  obtain ⟨hpos, hmax, -⟩ := clampChannel_cases maxChannel
  exact ⟨le_rfl, hpos, hmax, rfl⟩

theorem PollCall.Consistent.channel_range {p : PollCall} (h : p.Consistent) : 1 ≤ p.channel ∧ p.channel ≤ 80 := by
  obtain ⟨hmin, hle, hmax, -⟩ := h
  exact ⟨hmin, hle.trans hmax⟩

theorem exec_poll (maxChannel : Int) (delay tmo : Millis) (wrOk : Bool) (s : State) :
    exec (.poll maxChannel delay tmo wrOk) s = .next (s.probe (firstProbe maxChannel delay tmo s.now) wrOk) := rfl

/-- After its first probe POLL returns where no more than channel 1 is asked for, and else waits for channel 2. -/
theorem State.probeReturned_firstProbe (s : State) (maxChannel : Int) (delay tmo : Millis) (now : Time) (r : Result) :
    s.probeReturned (firstProbe maxChannel delay tmo now) r =
      if maxChannel ≤ 1 then { s with trace := s.trace ++ [.polled [probeEntry 1 r]] }
      else { s with polls := s.polls ++ [⟨(min maxChannel 80).toNat, delay, tmo, 2, [probeEntry 1 r], s.now⟩] } := by
  obtain ⟨hpos, -, hone⟩ := clampChannel_cases maxChannel
  by_cases hm : maxChannel ≤ 1
  · have hlast : clampChannel maxChannel ≤ 1 := (hone.mpr hm).le
    rw [if_pos hm, State.probeReturned, firstProbe, if_pos hlast]
    rfl
  · have hmore : ¬ clampChannel maxChannel ≤ 1 := fun h => hm (hone.mp (h.antisymm hpos))
    have hbound : clampChannel maxChannel = (min maxChannel 80).toNat := by
      rw [clampChannel, max_eq_left (by simp only [Config.chMin]; omega), Config.chMax]
    rw [if_neg hm, State.probeReturned, firstProbe, if_neg hmore, hbound]
    rfl

/-- Settles O55. -/
theorem pollClampsItsBoundAndProbesChannelOne : Obligations.PollClampsItsBoundAndProbesChannelOne := by
  intro maxChannel delay tmo s htmo hopen hst
  have hclamp : (clampChannel maxChannel : Int) = min (max maxChannel 1) 80 := by
    simp only [clampChannel, Config.chMin, Config.chMax]; omega
  have hframe : requestFrame (BitVec.ofNat 8 (0x78 + 1)) (BitVec.ofNat 8 1) =
      [0x00#8, 0xFF#8, 0x79#8, 0x86#8, 0x01#8, 0xFE#8] := by decide
  obtain ⟨hmin, hmax⟩ := (firstProbe_consistent maxChannel delay tmo s.now).channel_range
  refine ⟨clampChannel maxChannel, hclamp, ?_⟩
  rw [exec_poll, s.probe_sent hmin hmax htmo hopen hst, ← hframe]
  rfl

/-- Settles O56: channel 1 is in range whatever was asked for, so VALIDATE and DISPATCH test only what the clauses name. -/
theorem pollGoesOnAfterARefusedProbe : Obligations.PollGoesOnAfterARefusedProbe := by
  intro maxChannel delay tmo wrOk s entry goesOn
  obtain ⟨hmin, hmax⟩ := (firstProbe_consistent maxChannel delay tmo s.now).channel_range
  refine ⟨fun htmo => ?_, fun htmo hclosed => ?_, fun htmo hopen hst => ?_, fun htmo hopen hst => ?_⟩
  · rw [exec_poll, s.probe_of_timeout_zero hmin hmax htmo, State.probeReturned_firstProbe]
    simp only [goesOn, List.append_nil]
    rfl
  · rw [exec_poll, s.probe_of_closed hmin hmax htmo hclosed, State.probeReturned_firstProbe]
    rfl
  · rw [exec_poll, s.probe_of_busy hmin hmax htmo hopen hst, State.probeReturned_firstProbe]
    rfl
  · rw [exec_poll, s.probe_of_write_rejected hmin hmax htmo hopen hst, State.probeReturned_firstProbe]
    rfl

/-! #### A turn of a paused poll (R202, assumption log 12) -/

section
variable {s : State} {p : PollCall} {index : Nat} {wrOk : Bool} {rest : List InputEvent}
  (hin : s.input = .pollTurn index wrOk :: rest) (hp : s.polls[index]? = some p)
include hin hp

theorem step_pollTurn_early (hearly : (s.now - p.since).toNat < p.delay.toNat) :
    step s = .next { s with input := rest } := by
  have hwait : ¬ pollReady p s.now = true := by rw [pollReady_iff]; omega
  rw [step_of_pollTurn hin]
  simp only [State.pollTurn, hp, if_neg hwait]

theorem step_pollTurn_ready (hready : p.delay.toNat ≤ (s.now - p.since).toNat) :
    step s = .next (State.probe { s with input := rest, polls := s.polls.eraseIdx index } p wrOk) := by
  rw [step_of_pollTurn hin]
  simp only [State.pollTurn, hp, if_pos ((pollReady_iff p s.now).mpr hready)]

end

/-- Settles O58. -/
theorem aPollTurnWaitsForTheDelayThenProbes : Obligations.APollTurnWaitsForTheDelayThenProbes := by
  intro s p index wrOk rest hin hp
  let turn : State := { s with input := rest, polls := s.polls.eraseIdx index }
  refine ⟨fun hearly => step_pollTurn_early hin hp hearly, fun hready hmin hmax htmo hopen hst hwr => ?_⟩
  rw [step_pollTurn_ready hin hp hready, hwr, turn.probe_sent hmin hmax htmo hopen hst]

/-- Settles O60: the turn is the probe of the poll, taken from the list, by VALIDATE's and DISPATCH's tests in their order. -/
theorem aLaterRefusedProbeMakesAnEntryToo : Obligations.ALaterRefusedProbeMakesAnEntryToo := by
  intro s p index wrOk rest hin hp hready hmin hmax entries others goesOn
  let turn : State := { s with input := rest, polls := others }
  rw [step_pollTurn_ready hin hp hready]
  refine ⟨fun htmo => ?_, fun htmo hclosed => ?_, fun htmo hopen hst => ?_, fun htmo hopen hst hwr => ?_⟩
  · rw [turn.probe_of_timeout_zero hmin hmax htmo]
    simp only [goesOn, List.append_nil]
    rfl
  · rw [turn.probe_of_closed hmin hmax htmo hclosed]
    rfl
  · rw [turn.probe_of_busy hmin hmax htmo hopen hst]
    rfl
  · rw [hwr, turn.probe_of_write_rejected hmin hmax htmo hopen hst]
    rfl

/-! #### The entry of a probe (R204) -/

@[simp] theorem probeEntry_channel (channel : Nat) (r : Result) : (probeEntry channel r).channel = channel := by
  unfold probeEntry
  split <;> rfl

theorem probeEntry_ok (channel : Nat) (f : Frame) :
    probeEntry channel (.ok f) = ⟨channel, f.status == 0x5D#8, .ok⟩ := by
  rw [probeEntry, Config.stOk, beq_eq_decide]

/-- DECRSP fails with a bad length or a bad checksum (40_frame_codec.md R96). -/
theorem decodeResponse_fail_cases {bytes : List Byte} {f : Failure} (h : decodeResponse bytes = .fail f) :
    (∃ n raw, f = .badLength n raw) ∨ ∃ expected received raw, f = .badChecksum expected received raw := by
  unfold decodeResponse at h
  split at h
  next g st d a k =>
    split at h
    · cases h
    · cases h; exact .inr ⟨_, _, _, rfl⟩
  next => cases h; exact .inl ⟨_, _, rfl⟩

/-- With `allow` only an unexpected status fails after DECRSP (42_correlator.md R125). -/
theorem classifyFrame_allow_fail {frame : Frame} {f : Failure} (h : classifyFrame frame true = .fail f) :
    f = .unexpectedStatus frame.status frame.data frame.aux frame.raw := by
  unfold classifyFrame at h
  split at h
  · cases h; rfl
  · simp at h

/-- A probe's frame that fails is no timeout and no controller error, so it is a protocol error. -/
theorem probeEntry_of_classify_fail {bytes : List Byte} {f : Failure} (h : classify bytes true = .fail f)
    (channel : Nat) : probeEntry channel (.fail f) = ⟨channel, false, .protocolError⟩ := by
  cases hdec : decodeResponse bytes with
  | ok frame =>
    rw [classify, hdec] at h
    rw [classifyFrame_allow_fail h]
    rfl
  | fail e =>
    obtain rfl : e = f := Result.fail.inj ((classify_of_decodeResponse_fail hdec true).symm.trans h)
    obtain ⟨_, _, rfl⟩ | ⟨_, _, _, rfl⟩ := decodeResponse_fail_cases hdec <;> rfl

/-- A probe whose request ends: its entry after DONE, then the list, or the wait for the next channel (R200, R202). -/
theorem State.resume_poll_finished (s : State) (rx : List Byte) (p : PollCall) (r : Result) :
    (finished s rx [.done r]).resume (.poll p) r =
      if p.bound ≤ p.channel then finished s rx [.done r, .polled (p.results ++ [probeEntry p.channel r])]
      else { finished s rx [.done r] with polls := s.polls ++
        [⟨p.bound, p.delay, p.tmo, p.channel + 1, p.results ++ [probeEntry p.channel r], s.now⟩] } := by
  simp [State.resume, State.probeReturned, State.emit]

/-- Settles O57, by the frame's result and by the timer. -/
theorem aReturningProbeMakesOneEntry : Obligations.AReturningProbeMakesOneEntry := by
  intro s r p hst hp hc hallow next
  refine ⟨fun chunk hlen => ?_, fun htmr hdue => ?_⟩
  · have hexec : exec (.rxchunk chunk) s = _ := State.receive_full hst hlen hp
    rw [hallow, hc, State.resume_poll_finished] at hexec
    cases hcls : classify ((s.rxbuf ++ chunk).take 5) true with
    | ok f =>
      rw [hcls, probeEntry_ok] at hexec
      exact hexec
    | fail f =>
      rw [hcls, probeEntry_of_classify_fail hcls] at hexec
      exact hexec
  · rw [exec_tmrfire, execTmrfire_of_due hst htmr hp hdue, hc, State.resume_poll_finished]
    rfl

/-! #### The locals of a poll and the list it returns (R200, R201, R205) -/

/-- The list `p` returns: its entries and one more, of the channels from 1 to its bound. -/
def PollCall.Returns (p : PollCall) (es : List ProbeEntry) : Prop :=
  ChannelsInOrder es ∧ es.length = p.bound ∧ ∃ e, es = p.results ++ [e]

/-- With the entry of its probe a poll has one for each channel up to that one. -/
theorem PollCall.Consistent.channels {p : PollCall} (h : p.Consistent) (r : Result) :
    (p.results ++ [probeEntry p.channel r]).map ProbeEntry.channel = List.range' 1 p.channel := by
  obtain ⟨hmin, -, -, hres⟩ := h
  obtain ⟨n, hn⟩ := Nat.exists_eq_add_of_le' hmin
  rw [List.map_append, hres, hn, Nat.add_sub_cancel, List.range'_concat]
  simp [Nat.add_comm]

/-- After its last probe the list is complete. -/
theorem PollCall.Consistent.returns {p : PollCall} (h : p.Consistent) (hlast : p.bound ≤ p.channel) (r : Result) :
    p.Returns (p.results ++ [probeEntry p.channel r]) := by
  have hchannels := h.channels r
  have hlen : (p.results ++ [probeEntry p.channel r]).length = p.channel := by
    simpa using congrArg List.length hchannels
  obtain ⟨-, hle, -, -⟩ := h
  exact ⟨by rw [ChannelsInOrder, hchannels, hlen], hlen.trans (hle.antisymm hlast), _, rfl⟩

/-- Before its last probe the poll goes on to a channel within its bound. -/
theorem PollCall.Consistent.next {p : PollCall} (h : p.Consistent) (hmore : p.channel < p.bound) (r : Result) (now : Time) :
    PollCall.Consistent
      ⟨p.bound, p.delay, p.tmo, p.channel + 1, p.results ++ [probeEntry p.channel r], now⟩ := by
  have hchannels := h.channels r
  obtain ⟨-, -, hmax, -⟩ := h
  exact ⟨Nat.le_add_left 1 _, hmore, hmax, hchannels⟩

/-! #### What a step can do to the polls (R200, assumption logs 11 and 12) -/

/-- A caller that is a poll has consistent locals. -/
def Caller.Consistent (c : Caller) : Prop := ∀ p, c = .poll p → p.Consistent

theorem PollsConsistent.caller {s : State} (h : PollsConsistent s) : s.caller.Consistent := by
  rintro p hc
  obtain ⟨-, hcaller⟩ := h
  rw [hc] at hcaller
  exact hcaller

/-- The paused polls as before, and a caller that is consistent. -/
theorem PollsConsistent.with_caller {s t : State} (h : PollsConsistent s) (hpolls : t.polls = s.polls)
    (hc : t.caller.Consistent) : PollsConsistent t := by
  obtain ⟨hpaused, -⟩ := h
  refine ⟨hpolls ▸ hpaused, ?_⟩
  cases heq : t.caller with
  | host => trivial
  | call k => trivial
  | poll p => exact hc p heq

theorem consistent_host : Caller.host.Consistent := nofun

theorem consistent_poll {p : PollCall} (h : p.Consistent) : (Caller.poll p).Consistent := by
  rintro q ⟨⟩
  exact h

/-- Every list among `outs` is one that `c`, a poll, returns. -/
def ListsOf (c : Caller) (outs : List Output) : Prop := ∀ es, .polled es ∈ outs → ∃ p, c = .poll p ∧ p.Returns es

/-- From `s` to `t` the polls in progress stay consistent and only the poll `c`, if it is one, returns a list. -/
def PollStep (c : Caller) (s t : State) : Prop :=
  PollsConsistent t ∧ ∃ outs, t.trace = s.trace ++ outs ∧ ListsOf c outs

/-- Outputs without a list agree with any caller. -/
theorem listsOf_of_no_list {outs : List Output} (h : ∀ es, .polled es ∉ outs) (c : Caller) : ListsOf c outs :=
  fun es hes => absurd hes (h es)

theorem ListsOf.append {c : Caller} {outs more : List Output} (h : ListsOf c outs) (h' : ListsOf c more) :
    ListsOf c (outs ++ more) :=
  fun es hes => (List.mem_append.mp hes).elim (h es) (h' es)

section
variable {s t : State} {c : Caller}

theorem pollStep_of_trace_eq (h : PollsConsistent t) (htrace : t.trace = s.trace) : PollStep c s t :=
  ⟨h, [], by rw [htrace, List.append_nil], listsOf_of_no_list (by simp) c⟩

/-- What is put out before the poll resumes is no list. -/
theorem PollStep.after {u : State} {outs : List Output} (h : PollStep c u t) (htrace : u.trace = s.trace ++ outs)
    (hno : ∀ es, .polled es ∉ outs) : PollStep c s t := by
  obtain ⟨ht, more, hmore, hlists⟩ := h
  exact ⟨ht, outs ++ more, by rw [hmore, htrace, List.append_assoc], (listsOf_of_no_list hno c).append hlists⟩

/-- A poll that resumes makes its entry, and returns its list or waits on with consistent locals. -/
theorem PollsConsistent.resume (h : PollsConsistent s) (hc : c.Consistent) (r : Result) : PollStep c s (s.resume c r) := by
  obtain ⟨-, heq⟩ | ⟨k, -, heq⟩ | ⟨p, hp, hlast, heq⟩ | ⟨p, hp, hmore, heq⟩ := s.resume_cases c r <;> rw [heq]
  · exact pollStep_of_trace_eq h rfl
  · exact ⟨h, _, rfl, listsOf_of_no_list (by simp) c⟩
  · refine ⟨h, _, rfl, fun es hes => ?_⟩
    obtain rfl : es = p.results ++ [probeEntry p.channel r] := by simpa using hes
    exact ⟨p, hp, (hc p hp).returns hlast r⟩
  · obtain ⟨hpaused, hcaller⟩ := h
    refine pollStep_of_trace_eq ⟨fun q hq => ?_, hcaller⟩ rfl
    obtain hq | rfl := by simpa using hq
    · exact hpaused q hq
    · exact (hc p hp).next hmore r s.now

theorem PollsConsistent.refuse (h : PollsConsistent s) (hc : c.Consistent) (f : Failure) : PollStep c s (s.refuse c f) := by
  rw [State.refuse_eq]
  have hrejected : PollsConsistent { s with trace := s.trace ++ [.reject f] } := h
  exact (hrejected.resume hc (.fail f)).after rfl (by simp)

/-- At the end of a request its caller is no longer awaited, and the paused polls are as before. -/
theorem PollsConsistent.finished_resume (h : PollsConsistent s) (rx : List Byte) (r : Result) :
    PollStep s.caller s ((finished s rx [.done r]).resume s.caller r) := by
  have hdone : PollsConsistent (finished s rx [.done r]) := h.with_caller rfl consistent_host
  exact (hdone.resume h.caller r).after rfl (by simp)

theorem PollsConsistent.dispatch (h : PollsConsistent s) (hc : c.Consistent) (cmd sub : Int) (tmo : Millis) (desc : Desc)
    (allow wrOk : Bool) : PollStep c s (s.dispatch c cmd sub tmo desc allow wrOk) := by
  obtain ⟨-, heq⟩ | ⟨-, -, heq⟩ | ⟨-, -, -, heq⟩ | ⟨-, -, -, -, heq⟩ | ⟨-, -, -, -, heq⟩ :=
    s.dispatch_cases c cmd sub tmo desc allow wrOk <;> rw [heq]
  · exact h.refuse hc _
  · exact h.refuse hc _
  · exact h.refuse hc _
  · have hended : PollsConsistent s.endRequest := h.with_caller rfl consistent_host
    exact hended.refuse hc _
  · have haccepted : PollsConsistent (accepted s c desc allow tmo (encodeRequest cmd sub)) := h.with_caller rfl hc
    exact ⟨haccepted, _, rfl, listsOf_of_no_list (by simp) c⟩

theorem PollsConsistent.issue (h : PollsConsistent s) (hc : c.Consistent) (k : Call) (tmo : Millis) (wrOk : Bool) :
    PollStep c s (s.issue c k tmo wrOk) := by
  obtain ⟨f, -, heq⟩ | ⟨-, heq⟩ := s.issue_cases c k tmo wrOk <;> rw [heq]
  · exact h.resume hc (.fail f)
  · exact h.dispatch hc ..

/-- Who returns a list at a turn is the paused poll it names. -/
theorem PollsConsistent.pollTurn (h : PollsConsistent s) (index : Nat) (wrOk : Bool) :
    ∃ c, PollStep c s (s.pollTurn index wrOk) ∧ ∀ p, c = .poll p → s.polls[index]? = some p := by
  obtain heq | ⟨p, hp, -, heq⟩ := s.pollTurn_cases index wrOk <;> rw [heq]
  · exact ⟨.host, pollStep_of_trace_eq h rfl, nofun⟩
  · obtain ⟨hpolls, hcaller⟩ := h
    have hpaused : PollsConsistent { s with polls := s.polls.eraseIdx index } :=
      ⟨fun q hq => hpolls q (List.mem_of_mem_eraseIdx hq), hcaller⟩
    have hc : (Caller.poll p).Consistent := consistent_poll (hpolls p (List.mem_of_getElem? hp))
    exact ⟨.poll p, hpaused.issue hc .., by rintro q ⟨⟩; exact hp⟩

/-- Who returns a list at a chunk is the poll that waits for the reply. -/
theorem PollsConsistent.after_receive (h : PollsConsistent s) {chunk : List Byte} (hs : s.receive chunk = .next t) :
    ∃ c, PollStep c s t ∧ ∀ p, c = .poll p → s.st = .awaitingReply ∧ s.caller = .poll p := by
  obtain ⟨-, -, heq⟩ | ⟨-, -, heq⟩ | ⟨-, -, heq⟩ | ⟨-, -, -, heq⟩ | ⟨r, hst, -, -, heq⟩ := s.receive_cases chunk <;>
    rw [heq] at hs <;> cases hs
  · exact ⟨.host, pollStep_of_trace_eq h rfl, nofun⟩
  · exact ⟨.host, ⟨h, _, rfl, listsOf_of_no_list (by simp) _⟩, nofun⟩
  · exact ⟨.host, pollStep_of_trace_eq h rfl, nofun⟩
  · exact ⟨s.caller, h.finished_resume .., fun p hp => ⟨hst, hp⟩⟩

/-- Who returns a list when the timer fires is the poll that waits for the reply. -/
theorem PollsConsistent.after_tmrfire (h : PollsConsistent s) (hs : execTmrfire s = .next t) :
    PollStep s.caller s t ∧ s.st = .awaitingReply := by
  obtain heq | ⟨-, -, heq⟩ | ⟨r, hst, -, -, -, heq⟩ := execTmrfire_cases s <;> rw [heq] at hs <;> cases hs
  exact ⟨h.finished_resume .., hst⟩

/-- Who returns a list at an operation is the poll that waits for the reply it completes, or the POLL it is. -/
theorem PollsConsistent.after_exec (h : PollsConsistent s) {i : Instr} (hs : exec i s = .next t) :
    ∃ c, PollStep c s t ∧ ∀ p, c = .poll p →
      (endsRequests i ∧ s.st = .awaitingReply ∧ s.caller = .poll p) ∨
        ∃ maxChannel delay tmo wrOk, i = .poll maxChannel delay tmo wrOk ∧ p = firstProbe maxChannel delay tmo s.now := by
  obtain ⟨v, heq⟩ | ⟨-, heq⟩ | ⟨b, heq⟩ | ⟨rfl, heq⟩ | ⟨-, heq⟩ | ⟨chunk, hends, heq⟩ |
    ⟨cmd, sub, tmo, desc, allow, wrOk, -, heq⟩ | ⟨c, tmo, wrOk, heq⟩ | ⟨m, delay, tmo, wrOk, rfl, heq⟩ :=
    exec_cases i s <;> rw [heq] at hs
  · cases hs; exact ⟨.host, ⟨h, _, rfl, listsOf_of_no_list (by simp) _⟩, nofun⟩
  · cases hs; exact ⟨.host, pollStep_of_trace_eq ⟨nofun, trivial⟩ rfl, nofun⟩
  · cases hs; exact ⟨.host, pollStep_of_trace_eq h rfl, nofun⟩
  · obtain ⟨hstep, hst⟩ := h.after_tmrfire hs
    exact ⟨s.caller, hstep, fun p hp => .inl ⟨trivial, hst, hp⟩⟩
  · obtain ⟨-, -, heq⟩ | ⟨-, heq⟩ | ⟨-, heq⟩ := execTick_cases s <;> rw [heq] at hs <;> cases hs
    exact ⟨.host, pollStep_of_trace_eq h rfl, nofun⟩
  · obtain ⟨c, hstep, hpoll⟩ := h.after_receive hs
    exact ⟨c, hstep, fun p hp => .inl ⟨hends, hpoll p hp⟩⟩
  · cases hs; exact ⟨.host, h.dispatch consistent_host .., nofun⟩
  · cases hs; exact ⟨.call c, h.issue (c := .call c) nofun .., nofun⟩
  · cases hs
    refine ⟨.poll (firstProbe m delay tmo s.now), h.issue (consistent_poll (firstProbe_consistent ..)) .., ?_⟩
    rintro q ⟨⟩
    exact .inr ⟨m, delay, tmo, wrOk, rfl, rfl⟩

end

/-- The list of a POLL whose first probe is its last holds one entry, so its bound was clamped to 1. -/
theorem le_one_of_firstProbe_returns {maxChannel : Int} {delay tmo : Millis} {now : Time} {es : List ProbeEntry}
    (h : (firstProbe maxChannel delay tmo now).Returns es) : maxChannel ≤ 1 ∧ es.length = 1 := by
  obtain ⟨-, hlen, e, rfl⟩ := h
  obtain ⟨-, -, hone⟩ := clampChannel_cases maxChannel
  exact ⟨hone.mp hlen.symm, rfl⟩

/-- Settles O59, by the kinds of step: each lets one poll at most return a list. Taking the event from the list touches no poll. -/
theorem everyPollReturnsOneEntryPerChannel : Obligations.EveryPollReturnsOneEntryPerChannel := by
  intro s t h hs
  obtain ⟨-, heq⟩ | ⟨index, wrOk, rest, hin, heq⟩ | ⟨w, e, rest, -, -, heq⟩ | ⟨w, i, rest, hin, hd, heq⟩ :=
    step_cases s <;> rw [heq] at hs
  · cases hs
    exact ⟨h, [], (List.append_nil _).symm, nofun⟩
  · cases hs
    have hrest : PollsConsistent { s with input := rest } := h
    obtain ⟨c, ⟨ht, outs, htrace, hlists⟩, hpoll⟩ := hrest.pollTurn index wrOk
    refine ⟨ht, outs, htrace, fun es hes => ?_⟩
    obtain ⟨p, hp, horder, hlen, hlast⟩ := hlists es hes
    exact ⟨horder, .inr (.inl ⟨index, wrOk, rest, p, hin, hpoll p hp, hlen, hlast⟩)⟩
  · cases hs
  · have hrest : PollsConsistent { s with input := rest } := h
    obtain ⟨c, ⟨ht, outs, htrace, hlists⟩, hpoll⟩ := hrest.after_exec hs
    refine ⟨ht, outs, htrace, fun es hes => ?_⟩
    obtain ⟨p, hp, hreturns⟩ := hlists es hes
    obtain ⟨hends, hst, hcaller⟩ | ⟨m, delay, tmo, wrOk, rfl, rfl⟩ := hpoll p hp
    · obtain ⟨horder, hlen, hlast⟩ := hreturns
      exact ⟨horder, .inr (.inr ⟨w, rest, i, p, hin, hd, hends, hst, hcaller, hlen, hlast⟩)⟩
    · obtain ⟨hm, hone⟩ := le_one_of_firstProbe_returns hreturns
      obtain ⟨horder, -, -⟩ := hreturns
      exact ⟨horder, .inl ⟨w, rest, m, delay, tmo, wrOk, hin, hd, hm, hone⟩⟩

end Sys2Proof.Machine

/-! ### 60_exceptions.md: the numbers of the failures (R220), which port reports which of them (R245), and who never gets
CONTROLLER_ERROR (R228) -/

namespace Sys2Proof.Machine

/-! #### The numbers (R220) -/

/-- Settles O18. -/
theorem failureCodesAreNumbered : Obligations.FailureCodesAreNumbered :=
  ⟨fun _ => rfl, fun _ => rfl, fun _ _ _ => rfl, fun _ _ => rfl, fun _ _ _ => rfl, fun _ _ _ _ => rfl, fun _ => rfl,
    fun _ _ _ _ _ => rfl⟩

theorem failureNumber_ne_zero (f : Failure) : failureNumber f ≠ 0#3 := by
  cases f <;> simp [failureNumber]

/-- The failures of R245's column REJECT. -/
def Failure.IsRejection (f : Failure) : Prop := failureNumber f ∈ [1#3, 6#3]

theorem isRejection_portNotOpen (reason : PortReason) : (Failure.portNotOpen reason).IsRejection :=
  List.mem_cons_self

theorem isRejection_invalidArgument (reason : ArgumentReason) : (Failure.invalidArgument reason).IsRejection :=
  List.mem_cons_of_mem _ List.mem_cons_self

/-- VALIDATE fails with INVALID_ARGUMENT only (43_command_catalog.md R150). -/
theorem isRejection_of_validate {c : Call} {tmo : Millis} {f : Failure} (h : validate c tmo = some f) :
    f.IsRejection := by
  unfold validate at h
  split at h <;> split_ifs at h <;> cases h <;> exact isRejection_invalidArgument _

/-! #### How a pending request can end (R245) -/

/-- The results of R245's column DONE for the request `q`: Ok, COMM_TIMEOUT, bad checksum, unexpected status, and CONTROLLER_ERROR
where the request does not let status ERROR through. -/
def Pending.EndsWith (q : Pending) (r : Result) : Prop :=
  resultNumber r ∈ [0#3, 2#3, 4#3, 5#3] ∨ resultNumber r = 7#3 ∧ q.allow = false

theorem Pending.endsWith_timeout (q : Pending) (elapsed : Time) (tmo : Millis) (desc : Desc) :
    q.EndsWith (.fail (.commTimeout elapsed tmo desc)) :=
  .inl (by simp [resultNumber, failureNumber])

theorem Pending.endsWith_classifyFrame (q : Pending) (f : Frame) : q.EndsWith (classifyFrame f q.allow) := by
  unfold classifyFrame
  split_ifs with hstatus herror
  · exact .inl (by simp [resultNumber, failureNumber])
  · exact .inr ⟨rfl, herror.2⟩
  · exact .inl (by simp [resultNumber])

/-- Five bytes have the right length, so their classification is none of the failures that never leave the block (R224). -/
theorem Pending.endsWith_classify (q : Pending) {bytes : List Byte} (hlen : bytes.length = 5) :
    q.EndsWith (classify bytes q.allow) := by
  match bytes, hlen with
  | [g, st, d, a, k], _ =>
    rw [classify_five]
    split_ifs
    · exact .inl (by simp [resultNumber, failureNumber])
    · exact q.endsWith_classifyFrame _

/-! #### What a step can do to the request, its caller and the outputs -/

/-- An output that carries no result: a frame sent, a log record, the value of a function. -/
def Output.IsQuiet (o : Output) : Prop :=
  match o with
  | .tx _ | .log _ | .value _ => True
  | _ => False

/-- `allow` is the flag of the operation that `c` waits for, if that operation fixes it (43_command_catalog.md R152,
44_channel_poller.md R204). -/
def Caller.AllowIs (c : Caller) (allow : Bool) : Prop :=
  match c with
  | .host => True
  | .call k => allow = callAllow k
  | .poll _ => allow = true

theorem Caller.allowIs_host (allow : Bool) : Caller.host.AllowIs allow := trivial

theorem Caller.allowIs_call (k : Call) : (Caller.call k).AllowIs (callAllow k) := rfl

theorem Caller.allowIs_poll (p : PollCall) : (Caller.poll p).AllowIs (callAllow (.channel .chExists p.channel)) := rfl

/-- From `s` to `t`, where `c` is the one who submits a request, if one is submitted: nothing is begun or ended; RESET; the pending
request ends; or the new one is sent, fails at VALIDATE, is rejected, or is rejected by the transport. -/
inductive Effect (s : State) (c : Caller) : State → Prop where
  | quiet {t : State} (outs : List Output) (hp : t.p = s.p) (hcaller : t.caller = s.caller) (hpolls : t.polls = s.polls)
      (htrace : t.trace = s.trace ++ outs) (hquiet : ∀ o ∈ outs, o.IsQuiet) : Effect s c t
  | reset {t : State} (hcaller : t.caller = .host) (hpolls : t.polls = []) (htrace : t.trace = s.trace) : Effect s c t
  | ended (q : Pending) (r : Result) (rx : List Byte) (hp : s.p = some q) (hr : q.EndsWith r) :
      Effect s c ((finished s rx [.done r]).resume s.caller r)
  | sent (desc : Desc) (allow : Bool) (tmo : Millis) (frame : List Byte) (hallow : c.AllowIs allow) :
      Effect s c (accepted s c desc allow tmo frame)
  | invalid (f : Failure) (hf : f.IsRejection) : Effect s c (s.resume c (.fail f))
  | rejected (f : Failure) (hf : f.IsRejection) : Effect s c (s.refuse c f)
  | writeRejected (f : Failure) (hf : f.IsRejection) : Effect s c (s.endRequest.refuse c f)

section
variable {s t : State} {c : Caller}

/-- No output, and the request, the caller and the polls as before. -/
theorem Effect.silent (hp : t.p = s.p) (hcaller : t.caller = s.caller) (hpolls : t.polls = s.polls)
    (htrace : t.trace = s.trace) : Effect s c t :=
  .quiet [] hp hcaller hpolls (by rw [htrace, List.append_nil]) nofun

/-- One output that carries no result. -/
theorem Effect.emit {o : Output} (ho : o.IsQuiet) : Effect s c (s.emit o) :=
  .quiet [o] rfl rfl rfl rfl (by simpa using ho)

/-- DISPATCH's rejections are PORT_NOT_OPEN and INVALID_ARGUMENT (R245). -/
theorem effect_dispatch {allow : Bool} (hallow : c.AllowIs allow) (cmd sub : Int) (tmo : Millis) (desc : Desc)
    (wrOk : Bool) : Effect s c (s.dispatch c cmd sub tmo desc allow wrOk) := by
  obtain ⟨-, heq⟩ | ⟨-, -, heq⟩ | ⟨-, -, -, heq⟩ | ⟨-, -, -, -, heq⟩ | ⟨-, -, -, -, heq⟩ :=
    s.dispatch_cases c cmd sub tmo desc allow wrOk <;> rw [heq]
  · exact .rejected _ (isRejection_invalidArgument _)
  · exact .rejected _ (isRejection_portNotOpen _)
  · exact .rejected _ (isRejection_invalidArgument _)
  · exact .writeRejected _ (isRejection_portNotOpen _)
  · exact .sent desc allow tmo _ hallow

theorem effect_issue {k : Call} (hallow : c.AllowIs (callAllow k)) (tmo : Millis) (wrOk : Bool) :
    Effect s c (s.issue c k tmo wrOk) := by
  obtain ⟨f, hval, heq⟩ | ⟨-, heq⟩ := s.issue_cases c k tmo wrOk <;> rw [heq]
  · exact .invalid f (isRejection_of_validate hval)
  · exact effect_dispatch hallow ..

theorem effect_of_receive {chunk : List Byte} (hs : s.receive chunk = .next t) : Effect s c t := by
  obtain ⟨-, -, heq⟩ | ⟨-, -, heq⟩ | ⟨-, -, heq⟩ | ⟨-, -, -, heq⟩ | ⟨q, -, hlen, hp, heq⟩ := s.receive_cases chunk <;>
    rw [heq] at hs <;> cases hs
  · exact .silent rfl rfl rfl rfl
  · exact .emit trivial
  · exact .silent rfl rfl rfl rfl
  · exact .ended q _ _ hp (q.endsWith_classify (List.length_take_of_le hlen))

theorem effect_of_tmrfire (hs : execTmrfire s = .next t) : Effect s c t := by
  obtain heq | ⟨-, -, heq⟩ | ⟨q, -, -, hp, -, heq⟩ := execTmrfire_cases s <;> rw [heq] at hs <;> cases hs
  exact .ended q _ _ hp (q.endsWith_timeout ..)

theorem effect_of_tick (hs : execTick s = .next t) : Effect s c t := by
  obtain ⟨-, -, heq⟩ | ⟨-, heq⟩ | ⟨-, heq⟩ := execTick_cases s <;> rw [heq] at hs <;> cases hs
  exact .silent rfl rfl rfl rfl

/-- A poll that submits a request at an operation is a new POLL, which has no entries yet (44_channel_poller.md R200). -/
theorem effect_of_exec {i : Instr} (hs : exec i s = .next t) :
    ∃ c, (∀ p, c = .poll p → p.results = []) ∧ Effect s c t := by
  obtain ⟨v, heq⟩ | ⟨-, heq⟩ | ⟨b, heq⟩ | ⟨-, heq⟩ | ⟨-, heq⟩ | ⟨chunk, -, heq⟩ |
    ⟨cmd, sub, tmo, desc, allow, wrOk, -, heq⟩ | ⟨k, tmo, wrOk, heq⟩ | ⟨m, delay, tmo, wrOk, -, heq⟩ :=
    exec_cases i s <;> rw [heq] at hs
  · cases hs; exact ⟨.host, nofun, .emit trivial⟩
  · cases hs; exact ⟨.host, nofun, .reset rfl rfl rfl⟩
  · cases hs; exact ⟨.host, nofun, .silent rfl rfl rfl rfl⟩
  · exact ⟨.host, nofun, effect_of_tmrfire hs⟩
  · exact ⟨.host, nofun, effect_of_tick hs⟩
  · exact ⟨.host, nofun, effect_of_receive hs⟩
  · cases hs; exact ⟨.host, nofun, effect_dispatch (Caller.allowIs_host allow) ..⟩
  · cases hs; exact ⟨.call k, nofun, effect_issue (Caller.allowIs_call k) ..⟩
  · cases hs
    refine ⟨.poll (firstProbe m delay tmo s.now), ?_, effect_issue (Caller.allowIs_poll _) ..⟩
    rintro p ⟨⟩
    rfl

/-- `u` is `s` with the event of this step taken from the list, and `c` submits a request of its own: a new caller, or the paused poll
whose turn it is, which has left the list of polls (assumption log 12). -/
def TakesEvent (s : State) (c : Caller) (u : State) : Prop :=
  ∃ events, (u = { s with input := events } ∧ ∀ p, c = .poll p → p.results = []) ∨
    ∃ index p, s.polls[index]? = some p ∧ c = .poll p ∧
      u = { s with input := events, polls := s.polls.eraseIdx index }

theorem TakesEvent.trace_eq {u : State} (h : TakesEvent s c u) : u.trace = s.trace := by
  obtain ⟨_, ⟨rfl, -⟩ | ⟨_, _, -, -, rfl⟩⟩ := h <;> rfl

/-- What a step can do to the request, its caller and the outputs, by the kinds of step. -/
theorem effect_of_step (hs : step s = .next t) : ∃ u c, TakesEvent s c u ∧ Effect u c t := by
  obtain ⟨-, heq⟩ | ⟨index, wrOk, rest, -, heq⟩ | ⟨w, e, rest, -, -, heq⟩ | ⟨w, i, rest, -, -, heq⟩ :=
    step_cases s <;> rw [heq] at hs
  · cases hs
    exact ⟨s, .host, ⟨s.input, .inl ⟨rfl, nofun⟩⟩, .silent rfl rfl rfl rfl⟩
  · cases hs
    obtain heq | ⟨p, hp, -, heq⟩ := State.pollTurn_cases { s with input := rest } index wrOk <;> rw [heq]
    · exact ⟨_, .host, ⟨rest, .inl ⟨rfl, nofun⟩⟩, .silent rfl rfl rfl rfl⟩
    · exact ⟨_, .poll p, ⟨rest, .inr ⟨index, p, hp, rfl, rfl⟩⟩, effect_issue (Caller.allowIs_poll p) ..⟩
  · cases hs
  · obtain ⟨c, hnew, heffect⟩ := effect_of_exec hs
    exact ⟨_, c, ⟨rest, .inl ⟨rfl, hnew⟩⟩, heffect⟩

end

/-! #### The outputs of a step -/

/-- From `s` to `t` only outputs with the property `good` are put out. -/
def Emits (good : Output → Prop) (s t : State) : Prop := ∃ outs, t.trace = s.trace ++ outs ∧ ∀ o ∈ outs, good o

section
variable {good : Output → Prop} {s t u : State}

theorem emits_nothing (htrace : t.trace = s.trace) : Emits good s t :=
  ⟨[], by rw [htrace, List.append_nil], nofun⟩

theorem emits_one {o : Output} (htrace : t.trace = s.trace ++ [o]) (ho : good o) : Emits good s t :=
  ⟨[o], htrace, by simpa using ho⟩

theorem Emits.trans (h : Emits good s t) (h' : Emits good t u) : Emits good s u := by
  obtain ⟨outs, htrace, hgood⟩ := h
  obtain ⟨more, htrace', hgood'⟩ := h'
  exact ⟨outs ++ more, by rw [htrace', htrace, List.append_assoc],
    fun o ho => (List.mem_append.mp ho).elim (hgood o) (hgood' o)⟩

end

/-! #### Which port reports which failure (R245) -/

theorem Output.IsQuiet.portCodeOk {o : Output} (h : o.IsQuiet) : portCodeOk o := by
  cases o with
  | done r => exact h.elim
  | reject f => exact h.elim
  | _ => trivial

/-- A request ends with results that R245 gives to DONE. -/
theorem Pending.EndsWith.portCodeOk {q : Pending} {r : Result} (h : q.EndsWith r) : portCodeOk (.done r) := by
  cases r with
  | ok f => trivial
  | fail f =>
    obtain hmem | ⟨hseven, -⟩ := h
    · exact List.mem_append_left [7#3] (List.mem_of_ne_of_mem (failureNumber_ne_zero f) hmem)
    · exact List.mem_append_right [2#3, 4#3, 5#3] (List.mem_singleton.mpr hseven)

/-- What a resumed caller returns is on no port. -/
theorem State.resume_emits_portCodeOk (s : State) (c : Caller) (r : Result) : Emits portCodeOk s (s.resume c r) := by
  obtain ⟨-, heq⟩ | ⟨k, -, heq⟩ | ⟨p, -, -, heq⟩ | ⟨p, -, -, heq⟩ := s.resume_cases c r <;> rw [heq]
  · exact emits_nothing rfl
  · exact emits_one rfl trivial
  · exact emits_one rfl trivial
  · exact emits_nothing rfl

theorem State.refuse_emits_portCodeOk (s : State) (c : Caller) {f : Failure} (hf : f.IsRejection) :
    Emits portCodeOk s (s.refuse c f) := by
  have hreject : Emits portCodeOk s (s.emit (.reject f)) := emits_one rfl hf
  exact hreject.trans (State.resume_emits_portCodeOk ..)

theorem Effect.emits_portCodeOk {s t : State} {c : Caller} (h : Effect s c t) : Emits portCodeOk s t := by
  cases h with
  | quiet outs _ _ _ htrace hquiet => exact ⟨outs, htrace, fun o ho => (hquiet o ho).portCodeOk⟩
  | reset _ _ htrace => exact emits_nothing htrace
  | ended q r rx _ hr =>
    have hdone : Emits portCodeOk s (finished s rx [.done r]) := emits_one rfl hr.portCodeOk
    exact hdone.trans (State.resume_emits_portCodeOk ..)
  | sent => exact emits_one rfl trivial
  | invalid f _ => exact s.resume_emits_portCodeOk c (.fail f)
  | rejected f hf => exact s.refuse_emits_portCodeOk c hf
  | writeRejected f hf => exact s.endRequest.refuse_emits_portCodeOk c hf

/-- Settles O42. -/
theorem eachPortReportsOnlyItsCodes : Obligations.EachPortReportsOnlyItsCodes := by
  intro s t hs
  obtain ⟨u, c, htake, heffect⟩ := effect_of_step hs
  exact (emits_nothing htake.trace_eq).trans heffect.emits_portCodeOk

/-! #### Who gets CONTROLLER_ERROR (R228, 44_channel_poller.md R204) -/

/-- CONTROLLER_ERROR, if `r` is one, comes to a caller whose operation does not let status ERROR through. -/
def Caller.Takes (c : Caller) (r : Result) : Prop := resultNumber r = 7#3 → c.AllowIs false

/-- The caller of a request that carries its flag takes any result of the request. -/
theorem Pending.EndsWith.takes {q : Pending} {r : Result} {c : Caller} (h : q.EndsWith r) (hc : c.AllowIs q.allow) :
    c.Takes r := by
  intro hseven
  obtain hother | ⟨-, hallow⟩ := h
  · simp [hseven] at hother
  · exact hallow ▸ hc

/-- A rejection is no CONTROLLER_ERROR, so any caller takes it. -/
theorem Caller.takes_rejection (c : Caller) {f : Failure} (hf : f.IsRejection) : c.Takes (.fail f) := by
  intro hseven
  have hnumber : failureNumber f = 7#3 := hseven
  rw [Failure.IsRejection, hnumber] at hf
  exact absurd hf (by decide)

/-- Only CONTROLLER_ERROR makes an entry of that name (44_channel_poller.md R204). -/
theorem resultNumber_of_probeEntry {channel : Nat} {r : Result}
    (h : (probeEntry channel r).outcome = .controllerError) : resultNumber r = 7#3 := by
  unfold probeEntry at h
  split at h
  case h_3 => rfl
  all_goals cases h

/-- With the flag clear an operation is neither REPEAT nor CHEXISTS (43_command_catalog.md R152). -/
theorem ne_of_callAllow_eq_false {k : Call} (h : callAllow k = false) :
    (∀ ch, k ≠ .channel .chExists ch) ∧ k ≠ .plain .repeatLast := by
  constructor
  · rintro ch rfl
    cases h
  · rintro rfl
    cases h

theorem allowedOutput_returned {k : Call} {r : Result} (h : (Caller.call k).Takes r) :
    allowedOutput (.returned k (callResult k r)) := by
  cases r with
  | ok f => trivial
  | fail f =>
    cases f with
    | controllerError => exact ne_of_callAllow_eq_false (h rfl).symm
    | _ => trivial

theorem Output.IsQuiet.allowedOutput {o : Output} (h : o.IsQuiet) : allowedOutput o := by
  cases o with
  | returned k r => exact h.elim
  | polled es => exact h.elim
  | _ => trivial

/-- No entry of the poll is a controller error. -/
def PollCall.Clean (p : PollCall) : Prop := ∀ e ∈ p.results, e.outcome ≠ .controllerError

/-- A caller that is a poll is clean. -/
def Caller.Clean (c : Caller) : Prop := ∀ p, c = .poll p → p.Clean

/-- The entry of a result that the poll takes is no controller error. -/
theorem PollCall.Clean.entries {p : PollCall} {r : Result} (hp : p.Clean) (hr : (Caller.poll p).Takes r) :
    ∀ e ∈ p.results ++ [probeEntry p.channel r], e.outcome ≠ .controllerError := by
  intro e he
  obtain he | rfl := by simpa using he
  · exact hp e he
  · exact fun hout => Bool.false_ne_true (hr (resultNumber_of_probeEntry hout))

/-- The two invariants of the statement, by the state elements they speak of. -/
structure Clean (s : State) : Prop where
  allow : ∀ q ∈ s.p, s.caller.AllowIs q.allow
  polls : ∀ p ∈ s.polls, p.Clean
  caller : s.caller.Clean

theorem clean_iff (s : State) : Clean s ↔ AllowMatches s ∧ PollsClean s := by
  have hallow : AllowMatches s ↔ ∀ q ∈ s.p, s.caller.AllowIs q.allow := by
    unfold AllowMatches
    cases s.caller <;> simp [Caller.AllowIs]
  have hclean : PollsClean s ↔ (∀ p ∈ s.polls, p.Clean) ∧ s.caller.Clean := by
    unfold PollsClean Caller.Clean
    cases s.caller <;> simp [PollCall.Clean]
  rw [hallow, hclean]
  exact ⟨fun ⟨h, hpolls, hcaller⟩ => ⟨h, hpolls, hcaller⟩, fun ⟨h, hpolls, hcaller⟩ => ⟨h, hpolls, hcaller⟩⟩

section
variable {s t u : State} {c : Caller}

/-- The invariants do not speak of the phase, the port, the buffer, the timer, the clock, the events and the outputs. -/
theorem Clean.of_eq (h : Clean s) (hp : t.p = s.p) (hcaller : t.caller = s.caller) (hpolls : t.polls = s.polls) :
    Clean t :=
  ⟨by rw [hp, hcaller]; exact h.allow, by rw [hpolls]; exact h.polls, by rw [hcaller]; exact h.caller⟩

/-- Where nobody waits only the paused polls count. -/
theorem clean_of_host (hcaller : t.caller = .host) (hpolls : ∀ p ∈ t.polls, p.Clean) : Clean t :=
  ⟨by rw [hcaller]; exact fun _ _ => trivial, hpolls, by rw [hcaller]; exact nofun⟩

/-- The poll that submits a request at a step is clean: a new one has no entries, a paused one was in the list. -/
theorem Clean.takesEvent (h : Clean s) (htake : TakesEvent s c u) : Clean u ∧ c.Clean := by
  obtain ⟨events, ⟨rfl, hnew⟩ | ⟨index, p, hp, rfl, rfl⟩⟩ := htake
  · refine ⟨h.of_eq rfl rfl rfl, fun p hp e he => ?_⟩
    rw [hnew p hp] at he
    cases he
  · refine ⟨⟨h.allow, fun q hq => h.polls q (List.mem_of_mem_eraseIdx hq), h.caller⟩, ?_⟩
    rintro q ⟨⟩
    exact h.polls p (List.mem_of_getElem? hp)

/-- A clean caller that takes the result leaves a clean state and returns nothing the statement excludes. -/
theorem Clean.resume (h : Clean s) (hc : c.Clean) {r : Result} (hr : c.Takes r) :
    Clean (s.resume c r) ∧ Emits allowedOutput s (s.resume c r) := by
  obtain ⟨-, heq⟩ | ⟨k, rfl, heq⟩ | ⟨p, rfl, -, heq⟩ | ⟨p, rfl, -, heq⟩ := s.resume_cases c r <;> rw [heq]
  · exact ⟨h, emits_nothing rfl⟩
  · exact ⟨h.of_eq rfl rfl rfl, emits_one rfl (allowedOutput_returned hr)⟩
  · exact ⟨h.of_eq rfl rfl rfl, emits_one rfl ((hc p rfl).entries hr)⟩
  · refine ⟨⟨h.allow, fun q hq => ?_, h.caller⟩, emits_nothing rfl⟩
    obtain hq | rfl := by simpa using hq
    · exact h.polls q hq
    · exact (hc p rfl).entries hr

theorem Clean.refuse (h : Clean s) (hc : c.Clean) {f : Failure} (hf : f.IsRejection) :
    Clean (s.refuse c f) ∧ Emits allowedOutput s (s.refuse c f) := by
  have hemit : Clean (s.emit (.reject f)) := h.of_eq rfl rfl rfl
  have hreject : Emits allowedOutput s (s.emit (.reject f)) := emits_one rfl trivial
  obtain ⟨hclean, houts⟩ := hemit.resume hc (c.takes_rejection hf)
  exact ⟨hclean, hreject.trans houts⟩

theorem Clean.after_effect (h : Clean s) (hc : c.Clean) (heffect : Effect s c t) :
    Clean t ∧ Emits allowedOutput s t := by
  cases heffect with
  | quiet outs hp hcaller hpolls htrace hquiet =>
    exact ⟨h.of_eq hp hcaller hpolls, outs, htrace, fun o ho => (hquiet o ho).allowedOutput⟩
  | reset hcaller hpolls htrace => exact ⟨clean_of_host hcaller (by rw [hpolls]; exact nofun), emits_nothing htrace⟩
  | ended q r rx hp hr =>
    have hfinished : Clean (finished s rx [.done r]) := clean_of_host rfl h.polls
    have hdone : Emits allowedOutput s (finished s rx [.done r]) := emits_one rfl trivial
    obtain ⟨hclean, houts⟩ := hfinished.resume h.caller (hr.takes (h.allow q hp))
    exact ⟨hclean, hdone.trans houts⟩
  | sent desc allow tmo frame hallow =>
    refine ⟨⟨?_, h.polls, hc⟩, emits_one rfl trivial⟩
    rintro q ⟨⟩
    exact hallow
  | invalid f hf => exact h.resume hc (c.takes_rejection hf)
  | rejected f hf => exact h.refuse hc hf
  | writeRejected f hf =>
    have hended : Clean s.endRequest := clean_of_host rfl h.polls
    exact hended.refuse hc hf

end

/-- Settles O54: the flag of the pending request is the one its caller takes results of, so no entry and no returned result is a
CONTROLLER_ERROR that the statement excludes. -/
theorem probesNeverReportAControllerError : Obligations.ProbesNeverReportAControllerError := by
  intro s t hallow hpolls hs
  obtain ⟨u, c, htake, heffect⟩ := effect_of_step hs
  obtain ⟨hu, hc⟩ := ((clean_iff s).mpr ⟨hallow, hpolls⟩).takesEvent htake
  obtain ⟨hclean, houts⟩ := hu.after_effect hc heffect
  obtain ⟨hallow', hpolls'⟩ := (clean_iff t).mp hclean
  exact ⟨hallow', hpolls', (emits_nothing htake.trace_eq).trans houts⟩

end Sys2Proof.Machine

/-! ### 70_reset_and_hazards.md: RESET (R260), late replies (R272), remainders (R273), chunk boundaries (R276) -/

namespace Sys2Proof.Machine

/-! #### RESET (R260) -/

/-- Settles O29: ending the request, clearing the buffer, closing the port and dropping the polls are all that RESET does. -/
theorem resetRestoresTheInitialState : Obligations.ResetRestoresTheInitialState :=
  fun _ => rfl

/-! #### Chunk boundaries after the fifth byte (R276) -/

/-- A resumed caller neither reads nor writes the buffer. -/
theorem State.resume_with_rxbuf (s : State) (rx : List Byte) (c : Caller) (r : Result) :
    ({ s with rxbuf := rx } : State).resume c r = { s.resume c r with rxbuf := rx } := by
  obtain ⟨rfl, heq⟩ | ⟨k, rfl, heq⟩ | ⟨p, rfl, hlast, heq⟩ | ⟨p, rfl, hmore, heq⟩ := s.resume_cases c r <;> rw [heq]
  · rfl
  · rfl
  · exact if_pos hlast
  · exact if_neg hmore.not_ge

/-- A frame that reaches an empty buffer in one chunk with `extra` ends the request with the frame's own result and leaves `extra`. -/
theorem State.receive_frame_append {s : State} {r : Pending} {frame : List Byte} (hst : s.st = .awaitingReply)
    (hp : s.p = some r) (hbuf : s.rxbuf = []) (hlen : frame.length = 5) (extra : List Byte) :
    s.receive (frame ++ extra) = .next ((finished s extra [.done (classify frame r.allow)]).resume s.caller
      (classify frame r.allow)) := by
  have htake : (s.rxbuf ++ (frame ++ extra)).take 5 = frame := by
    rw [hbuf, List.nil_append, List.take_left' hlen]
  have hdrop : (s.rxbuf ++ (frame ++ extra)).drop 5 = extra := by
    rw [hbuf, List.nil_append, List.drop_left' hlen]
  have hfull : 5 ≤ (s.rxbuf ++ (frame ++ extra)).length := by
    simp only [List.length_append]; omega
  rw [State.receive_full hst hfull hp, htake, hdrop]

/-- Settles O23: the frame ends the request alike with and without more bytes in its chunk; the second chunk comes in Idle. -/
theorem chunkBoundariesAfterTheFifthByteMatter : Obligations.ChunkBoundariesAfterTheFifthByteMatter := by
  intro s r frame extra hst hp hbuf hlen hextra
  have hone := State.receive_frame_append hst hp hbuf hlen extra
  have htwo := State.receive_frame_append hst hp hbuf hlen []
  rw [List.append_nil] at htwo
  refine ⟨_, _, hone, State.resume_st .., State.resume_rxbuf .., htwo, ?_⟩
  have hsame : (finished s [] [.done (classify frame r.allow)]).resume s.caller (classify frame r.allow) =
      { (finished s extra [.done (classify frame r.allow)]).resume s.caller (classify frame r.allow) with rxbuf := [] } :=
    State.resume_with_rxbuf (finished s extra _) [] ..
  rw [exec_rxchunk, State.receive_idle (State.resume_st ..), if_neg hextra, hsame]
  rfl

/-! #### Remainders (R273) -/

/-- The byte that completes a frame leaves nothing behind it: with one-byte chunks no remainder outlives its frame. -/
theorem rxbuf_nil_of_receive_byte {s t : State} {b : Byte} (hst : s.st = .awaitingReply) (hshort : s.rxbuf.length ≤ 4)
    (hs : s.receive [b] = .next t) (hidle : t.st = .idle) : t.rxbuf = [] := by
  obtain ⟨hst', -⟩ | ⟨hst', -⟩ | ⟨-, -, heq⟩ | ⟨-, -, -, heq⟩ | ⟨r, -, -, -, heq⟩ := s.receive_cases [b]
  · simp [hst] at hst'
  · simp [hst] at hst'
  · rw [heq] at hs
    cases hs
    simp [hst] at hidle
  · rw [heq] at hs
    cases hs
  · rw [heq] at hs
    cases hs
    rw [State.resume_rxbuf]
    refine List.drop_of_length_le ?_
    rw [List.length_append, List.length_singleton]
    omega

/-- Settles O24: behind a remainder of k bytes the frame ends k bytes before the end of a five-byte chunk, and at the end of a one-byte
chunk. -/
theorem remaindersPersistOrHealByChunking : Obligations.RemaindersPersistOrHealByChunking := by
  refine ⟨fun s r reply hst hp _ hrem hlen => ?_, fun s t b hst hrem hs hidle =>
    rxbuf_nil_of_receive_byte hst hrem hs hidle⟩
  have hfull : 5 ≤ (s.rxbuf ++ reply).length := by rw [List.length_append]; omega
  have htake : (s.rxbuf ++ reply).take 5 = s.rxbuf ++ reply.take (5 - s.rxbuf.length) := by
    rw [List.take_append, List.take_of_length_le (by omega)]
  have hdrop : (s.rxbuf ++ reply).drop 5 = reply.drop (5 - s.rxbuf.length) := by
    rw [List.drop_append, List.drop_of_length_le (by omega), List.nil_append]
  have hexec := State.receive_full hst hfull hp
  rw [htake, hdrop] at hexec
  obtain ⟨polls, more, heq⟩ := s.resume_finished s.caller (classify (s.rxbuf ++ reply.take (5 - s.rxbuf.length)) r.allow)
    (reply.drop (5 - s.rxbuf.length))
  rw [heq] at hexec
  exact ⟨_, hexec, rfl, rfl, by rw [List.length_drop]; omega, more, rfl⟩

/-! #### Late replies (R272) -/

/-- A timeout leaves nothing to end: no request, no timer, nobody waiting, an empty buffer. -/
theorem finished_of_execTmrfire {s t : State} (hs : execTmrfire s = .next t) : finished t [] [] = t := by
  obtain heq | ⟨-, -, heq⟩ | ⟨r, -, -, -, -, heq⟩ := execTmrfire_cases s <;> rw [heq] at hs <;> cases hs
  obtain ⟨polls, more, heq⟩ := s.resume_finished s.caller (.fail (.commTimeout (elapsedSince r.t0 s.now) r.tmo r.desc)) []
  rw [heq, finished, List.append_nil]

/-- Settles O39: after the timeout the block is in Idle with an empty buffer, so five late bytes are stray there, and behind the next
request they are its whole frame. -/
theorem lateRepliesAreStrayOrTakenForTheNextReply : Obligations.LateRepliesAreStrayOrTakenForTheNextReply := by
  intro s t late hopen hs hlen
  have hst : t.st = .idle := st_idle_of_execTmrfire hs
  have hfin : finished t [] [] = t := finished_of_execTmrfire hs
  have hbuf : t.rxbuf = [] := congrArg State.rxbuf hfin.symm
  have hlate : late ≠ [] := List.ne_nil_of_length_pos (by omega)
  refine ⟨?_, fun cmd sub tmo desc allow htmo => ?_⟩
  · rw [exec_rxchunk, State.receive_idle hst, if_neg hlate]
    rfl
  · have hopen' : t.portOpen = true := (portOpen_of_execTmrfire hs).trans hopen
    have hsent := State.dispatch_of_open_idle hopen' hst htmo .host cmd sub desc allow
    have hdone := State.receive_frame_of_host (s := accepted t .host desc allow tmo (encodeRequest cmd sub))
      rfl rfl hbuf rfl hlen
    have hrest (outs : List Output) : finished (accepted t .host desc allow tmo (encodeRequest cmd sub)) [] outs =
        { finished t [] [] with trace := t.trace ++ [.tx (encodeRequest cmd sub)] ++ outs } := rfl
    rw [hrest, hfin] at hdone
    exact ⟨_, congrArg Host.Outcome.next hsent, rfl, hdone⟩

end Sys2Proof.Machine
